-- ==== Sys2Proof/Word.lean ====
section
/-! DEFINITION. The bit patterns and numbers of the PX512 that the manual treats as such. -/

namespace Sys2Proof

/-- A value byte, a sequence number, an incarnation, a flags or code field: 8 bits. -/
abbrev Byte := BitVec 8

/-- A word of the host port, a revision, a change count, a statistics counter: 16 bits. -/
abbrev Word := BitVec 16

/-- The name of a point, a pattern or a mask: 24 bits (section 4 of 00_scope.md). -/
abbrev Tag := BitVec 24

/-- An address of the point bus: 6 bits (R118). 0 and 63 are no node's. -/
abbrev Addr := BitVec 6

/-- A frame of the maintenance port: 48 bits, bit 47 first (section 11.2). -/
abbrev MaintFrame := BitVec 48

/-- One of the 512 slots (R1). -/
abbrev SlotIx := Fin 512

/-- One of the 16 zones (R37). -/
abbrev ZoneIx := Fin 16

/-- The zone of a tag is its first hex digit (R28, R37). -/
def zoneOf (t : Tag) : ZoneIx := (t.extractLsb' 20 4).toFin

end Sys2Proof
end

