-- ==== Sys2Proof/Config.lean ====
section
/-! DEFINITION. The sizes the manual fixes, and the free values: constants with no body, for what it leaves open. -/

namespace Sys2Proof.Config

/-- Answer entries of the answer queue (R137). -/
@[simp, reducible] def answerCapacity : Nat := 24

/-- NOTIFY entries that may stand in the answer queue (R137). -/
@[simp, reducible] def notifyCapacity : Nat := 16

/-- Entries of the deferred update queue (R89). -/
@[simp, reducible] def deferredCapacity : Nat := 32

/-- Entries of the subscription pool (R103). -/
@[simp, reducible] def poolCapacity : Nat := 256

/-- Entries of one subscriber list (R104). -/
@[simp, reducible] def listCapacity : Nat := 4

/-- Blocks of the command queue (R154). -/
@[simp, reducible] def commandCapacity : Nat := 4

/-- Entries of the completion queue, held and reserved together (R154, R156). -/
@[simp, reducible] def completionCapacity : Nat := 8

/-- Quiet bit times after which the line is idle (R117). -/
@[simp, reducible] def idleBits : Nat := 11

/-- Quiet time after which JOINING ends, in milliseconds (R132). -/
@[simp, reducible] def joinMillis : Nat := 2

/-- FAULT outcomes at which an answer entry is discarded (R146). -/
@[simp, reducible] def faultLimit : Nat := 3

/-- Consecutive ones on MDI that realign the maintenance port (R184). -/
@[simp, reducible] def alignmentOnes : Nat := 64

/-- Width of the device time base, as the number of its values (R70). -/
@[simp, reducible] def timeBaseRange : Nat := 2 ^ 48

/-- FREE VALUE (log 3). The rank of the `index`th of the part's own events that are due together, on the `choice`th
occasion; the manual lets such events be taken in any order (R82, R99). -/
opaque ownEventRank : (choice index : Nat) → Nat

/-- FREE VALUE (log 5). What the time base holds after its largest value; R70 says only that it does not wrap in
service. -/
opaque timeBaseAfterLast : BitVec 48

/-- FREE VALUE (log 11). How many bit times of its millisecond have passed when the port begins to read the line, at a
BUS_START taken at this time base value; the manual does not tie the bit times of the line to the count of
milliseconds. -/
opaque startPhase : (timeBase : Nat) → Nat

end Sys2Proof.Config
end

