-- ==== Sys2Proof/Syntax.lean ====
section
/-! DEFINITION. The commands of the PX512: one constructor for each row of spec/opcode_table.json, in its order. -/

namespace Sys2Proof

/-- What the port reads from the line in one bit time (R116). -/
inductive Reading where
  | zero
  | one
  | quiet
  deriving DecidableEq, Repr

/-- The host registers whose writes are ignored (R151). -/
inductive WriteIgnored where
  | cplData
  | status
  | maintMailbox
  deriving DecidableEq, Repr

/-- A rising edge of MCLK: the level on MDI, and whether MCLK falls again before anything else happens. Else MCLK stays
high, and falls just before its next rising edge (log 17). -/
structure MclkEdge where
  mdi : Bool
  falls : Bool
  deriving DecidableEq, Repr

/-- The commands. A row that is an access or a frame from outside carries what the outside sends; a row that the part
takes of its own accord carries the slot or zone it is taken for; a host command carries nothing, its operands being
in the head block of the command queue (R155). -/
inductive Instr where
  /-- Power-on or RESET#, with the levels on ADDR5 to ADDR0 and on RATE1, RATE0 (R22, R166). -/
  | reset (addr : Addr) (rate : BitVec 2)
  /-- The time base has reached the lease deadline of the record in a slot (R74). -/
  | leaseExpiry (slot : SlotIx)
  /-- The time base has reached the grace deadline of the record in a slot (R78). -/
  | graceExpiry (slot : SlotIx)
  /-- The time base has reached the freeze deadline of a zone (R99). -/
  | freezeLimitExpiry (zone : ZoneIx)
  /-- The line gives these readings, one for each bit time, the first first; a frame among them ends at its first quiet
  bit time, and most such frames are dropped (R116, R117, R124). In an attempt they are of
  frames that ended before it, or of the frame on the line when it goes on behind the last bit sent (R125; log 8). -/
  | frameDropped (readings : List Reading)
  /-- A PUBLISH frame with a right check starts on the idle line, behind 11 quiet bit times, and ends (R54, R117, R118).
  In an attempt it is one that ended before it, as for the four rows below (log 8). -/
  | publish (dst src : Addr) (tag : Tag) (seq flags : Byte) (value : List Byte)
  /-- A WITHDRAW frame with a right check starts on the idle line and ends, likewise (R60, R117). -/
  | withdraw (dst src : Addr) (tag : Tag) (seq : Byte)
  /-- A SUBSCRIBE frame with a right check starts on the idle line and ends, likewise (R105, R117). -/
  | subscribe (dst src : Addr) (tag : Tag) (seq : Byte)
  /-- An UNSUBSCRIBE frame with a right check starts on the idle line and ends, likewise (R107, R117). -/
  | unsubscribe (dst src : Addr) (tag : Tag) (seq : Byte)
  /-- A QUERY frame with a right check starts on the idle line and ends, likewise (R117, R127, R128). -/
  | query (dst src : Addr) (pattern : Tag) (payload : List Byte)
  /-- The line reads quiet for so many bit times; with 2 ms of quiet a JOINING port comes ONLINE (R132). -/
  | busOnline (quiet : Nat)
  /-- The line reads quiet for so many bit times more, and the transmitter may start an attempt (R140). -/
  | attemptStart (quiet : Nat)
  /-- Every bit of the attempt under way was read as driven, to the last, and the frame has ended (R129, R144). -/
  | attemptSent
  /-- In this bit of the attempt under way the line was read as 0 (R129, R145). -/
  | attemptLost (bit : Nat)
  /-- In this bit of the attempt under way the line gave this reading (R129, R146). -/
  | attemptFault (bit : Nat) (reading : Reading)
  /-- The host writes CMD_DATA (R152). -/
  | cmdData (w : Word)
  /-- The host writes CMD_SUBMIT (R153). -/
  | cmdSubmit (w : Word)
  /-- The host reads CPL_DATA (R156). -/
  | cplData
  /-- The host writes CPL_POP (R157). -/
  | cplPop (w : Word)
  /-- The host writes INT_STATUS (R159). -/
  | intStatus (w : Word)
  /-- The host writes INT_ENABLE (R160). -/
  | intEnable (w : Word)
  /-- The host reads MAINT_MAILBOX (R161). -/
  | maintMailbox
  /-- The host writes a register that ignores writes (R151). -/
  | ignoredWrite (register : WriteIgnored) (w : Word)
  /-- The unit takes a head block that is no command (R155). -/
  | badCommand
  /-- The unit takes a head block that is a CREATE (R61). -/
  | create
  /-- The unit takes a head block that is a RETIRE (R65). -/
  | retire
  /-- The unit takes a head block that is a WRITE (R62). -/
  | write
  /-- The unit takes a head block that is a FORCE (R63). -/
  | force
  /-- The unit takes a head block that is an UNFORCE (R64). -/
  | unforce
  /-- The unit takes a head block that is a READ (R163). -/
  | read
  /-- The unit takes a head block that is a LIST (R164). -/
  | list
  /-- The unit takes a head block that is a SET_ZONE (R47). -/
  | setZone
  /-- The unit takes a head block that is a ZONE_STATUS (R50). -/
  | zoneStatus
  /-- The unit takes a head block that is a FREEZE (R85). -/
  | freeze
  /-- The unit takes a head block that is a THAW (R86). -/
  | thaw
  /-- The unit takes a head block that is a SET_DEVICE (R167). -/
  | setDevice
  /-- The unit takes a head block that is a BUS_START (R131). -/
  | busStart
  /-- The unit takes a head block that is a BUS_STOP (R133, R134). -/
  | busStop
  /-- The unit takes a head block that is a CLEAR_TABLE (R19). -/
  | clearTable
  /-- The unit takes a head block that is a COUNTERS (R170). -/
  | counters
  /-- The unit takes a head block that is a SET_MAINT_MODE (R171). -/
  | setMaintMode
  /-- The tool sends a frame with code FFh (R174). -/
  | noRequest (rest : BitVec 40)
  /-- The tool sends a frame with a code outside the table (R174). -/
  | unknownRequestCode (code : Byte) (rest : BitVec 40)
  /-- The tool sends a NOP frame (R174). -/
  | nop (rest : BitVec 40)
  /-- The tool sends a PEEK frame (R176). -/
  | peek (slot : Word) (field incarnation spare : Byte)
  /-- The tool sends a PEEK_ZONE frame (R177). -/
  | peekZone (zone : Word) (rest : BitVec 24)
  /-- The tool sends a WATCH frame (R175). -/
  | watch (slotBits : Word) (field : Byte) (rest : Word)
  /-- The tool sends an ATTENTION frame (R178). -/
  | attention (code : Word) (rest : BitVec 24)
  /-- The tool sends a POKE request frame (R179). -/
  | poke (slot : Word) (field incarnation spare : Byte)
  /-- The tool sends the frame that follows a POKE request (R180). -/
  | pokeDataFrame (frame : MaintFrame)
  /-- The tool sends frame k+2 of a POKE (R181). -/
  | pokeReadBack (frame : MaintFrame)
  /-- The tool sends frame k+3 of a POKE (R181). -/
  | pokeEnd (frame : MaintFrame)
  /-- MCLK has stood still inside a frame (R183). -/
  | frameTimeout
  /-- A rising edge of MCLK that samples the 64th consecutive 1, and the fall behind it (R184). -/
  | alignmentRecovery
  /-- A rising edge of MCLK (R172). -/
  | mclkRisingEdge (edge : MclkEdge)
  deriving DecidableEq, Repr

end Sys2Proof
end

