-- ==== Sys2Proof/WellFormed.lean ====
section
/-! DEFINITION. Which terms of `Instr` can be sent: the ranges that the types leave open. -/

namespace Sys2Proof

/-- The request codes of the table of section 11.2, FFh included. -/
def requestCodes : List Byte := [0x00, 0x01, 0x02, 0x03, 0x04, 0x05, 0xFF]

/-- A command is well formed when its operands have a form the outside can give them: a payload of at most 8 bytes
(R118), an unknown code that is in fact unknown (R174), a bit that a frame of at most 148 bits has (R117), a lost bit in
the 12 bits of destination and source (R129), a faulted bit with a reading. -/
def Instr.wf : Instr → Bool
  | .publish _ _ _ _ _ value => value.length ≤ 8
  | .query _ _ _ payload => payload.length ≤ 8
  | .attemptLost bit => bit < 12
  | .attemptFault bit _ => bit < 148
  | .unknownRequestCode code _ => !requestCodes.contains code
  | .reset _ _ | .leaseExpiry _ | .graceExpiry _ | .freezeLimitExpiry _ | .frameDropped _ | .withdraw _ _ _ _
  | .subscribe _ _ _ _ | .unsubscribe _ _ _ _ | .busOnline _ | .attemptStart _ | .attemptSent | .cmdData _
  | .cmdSubmit _ | .cplData | .cplPop _ | .intStatus _ | .intEnable _ | .maintMailbox | .ignoredWrite _ _
  | .badCommand | .create | .retire | .write | .force | .unforce | .read | .list | .setZone | .zoneStatus | .freeze
  | .thaw | .setDevice | .busStart | .busStop | .clearTable | .counters | .setMaintMode | .noRequest _ | .nop _
  | .peek _ _ _ _ | .peekZone _ _ | .watch _ _ _ | .attention _ _ | .poke _ _ _ _ | .pokeDataFrame _
  | .pokeReadBack _ | .pokeEnd _ | .frameTimeout | .alignmentRecovery | .mclkRisingEdge _ => true

end Sys2Proof
end

