-- ==== Sys2Proof/Machine/State.lean ====
section
/-! DEFINITION. The state of the PX512 as plain data, what it holds after reset, and one update per field. -/

namespace Sys2Proof.Machine

/-! ## Record store (chapter 1) -/

/-- The state of a slot that holds a record (R1). A FREE slot holds none. -/
inductive Liveness where
  | live
  | stale
  deriving DecidableEq, Repr

/-- The pending age step of a record (R80). -/
inductive AgeStep where
  | noStep
  | expire
  | retire
  deriving DecidableEq, Repr

/-- Who may change the process value of a record (R2, R61). -/
inductive Producer where
  | host
  | node (address : Addr)
  deriving DecidableEq, Repr

/-- A subscription entry in use: its place is its record and its position in the list (R103). -/
structure Subscription where
  node : Addr
  missed : Bool
  deriving DecidableEq, Repr

/-- The fields of a LIVE or STALE slot (R2), the optional ones as `Option` (R3). -/
structure Record where
  state : Liveness
  tag : Tag
  producer : Producer
  length : Nat
  processValue : Option (List Byte)
  lastSequence : Option Byte
  forcedValue : Option (List Byte)
  revision : Word
  lastUpdate : Nat
  leaseDeadline : Option Nat
  graceDeadline : Option Nat
  pendingAge : AgeStep
  subscribers : List Subscription
  deriving DecidableEq, Repr

/-- A slot: FREE when it holds no record. The incarnation is held in either case (R4). -/
structure Slot where
  incarnation : Byte
  record : Option Record
  deriving DecidableEq, Repr

/-- The last-touched register (R11). -/
structure LastTouched where
  slot : SlotIx
  tag : Tag
  revision : Word
  deriving DecidableEq, Repr

/-- An entry of the tag directory (R23). -/
structure DirEntry where
  tag : Tag
  slot : SlotIx
  deriving DecidableEq, Repr

/-! ## Zone table (chapter 3) -/

/-- The status of a zone (R39). -/
inductive ZoneStatus where
  | disabled
  | active
  deriving DecidableEq, Repr

/-- The admission of a zone (R40). -/
inductive Admission where
  | closed
  | opened
  deriving DecidableEq, Repr

/-- A zone entry (R37). `freeze` is NONE or FROZEN with its freeze deadline (R46). -/
structure Zone where
  status : ZoneStatus
  admission : Admission
  quota : Nat
  count : Nat
  lease : Nat
  grace : Nat
  changeCount : Word
  freeze : Option Nat
  deriving DecidableEq, Repr

/-! ## Freeze unit (chapter 6) -/

/-- A deferred entry (R89). -/
structure Deferred where
  slot : SlotIx
  incarnation : Byte
  sequence : Byte
  value : List Byte
  deriving DecidableEq, Repr

/-! ## Outcome codes (chapter 4) -/

/-- The outcome codes shared by the three ports (R69). -/
inductive OutcomeCode where
  | ok
  | created
  | deferred
  | duplicate
  | old
  | badTag
  | noZone
  | noRecord
  | alreadyExists
  | notOwner
  | badLength
  | quota
  | tableFull
  | zoneFrozen
  | deferFull
  | poolEmpty
  | listFull
  | notForced
  | alreadyFrozen
  | notFrozen
  | quotaTooLow
  | zoneInUse
  | busActive
  | badArgument
  | badCommand
  | notPermitted
  | staleRef
  | busy
  deriving DecidableEq, Repr

/-! ## Answer queue and transmitter (chapter 9) -/

/-- A reference to a record from outside the record store (R4). -/
structure Ref where
  slot : SlotIx
  incarnation : Byte
  deriving DecidableEq, Repr

/-- What an answer entry holds by its kind (R137). A REPLY without a reference is a NOT_FOUND one. -/
inductive AnswerBody where
  | reply (ref : Option Ref) (more last notFound : Bool)
  | notify (ref : Ref) (missed : Bool)
  | confirm (sequence : Byte) (code : OutcomeCode)
  deriving DecidableEq, Repr

/-- An answer entry (R137). -/
structure Answer where
  body : AnswerBody
  destination : Addr
  tag : Tag
  enqueueTime : Nat
  faultCount : Nat
  started : Bool
  deriving DecidableEq, Repr

/-- A frame of the point bus but for its check (section 8.2). -/
structure Frame where
  destination : Addr
  source : Addr
  kind : BitVec 4
  tag : Tag
  sequence : Byte
  flags : Byte
  code : Byte
  payload : List Byte
  deriving DecidableEq, Repr

/-! ## Point bus port (chapter 8) -/

/-- The port states (R130). -/
inductive PortState where
  | offline
  | joining
  | online
  deriving DecidableEq, Repr

/-- The bit rates of the line, in kbit/s (R116). -/
inductive BitRate where
  | kbit125
  | kbit250
  | kbit500
  | kbit1000
  deriving DecidableEq, Repr

/-- The bit rate that RATE1, RATE0 select (section 6 of 00_scope.md). -/
def BitRate.ofStraps (rate : BitVec 2) : BitRate :=
  match rate.toNat with
  | 0 => .kbit125
  | 1 => .kbit250
  | 2 => .kbit500
  | _ => .kbit1000

/-- The state fields of the point bus port (R130), and what R117 implies: `quietTime` counts the quiet bit times read
without a break, in ONLINE too (log 10); `underWay` holds the bits of a frame that is partly received; `lineTime` counts
the bit times read in the present millisecond (log 11). -/
structure Port where
  state : PortState
  ownAddress : Addr
  bitRate : BitRate
  quietTime : Nat
  stopPending : Bool
  underWay : Option (List Bool)
  lineTime : Nat
  deriving DecidableEq, Repr

/-! ## Host command unit (chapter 10) -/

/-- The device settings (R166). An own address of 0 or 63 is invalid. -/
structure Settings where
  ownAddress : Addr
  bitRate : BitRate
  answerLifetime : Nat
  freezeLimit : Nat
  deriving DecidableEq, Repr

/-- The nine statistics counters, in the order of R169. -/
structure Counters where
  rxGood : Word
  rxBad : Word
  refused : Word
  oldSeq : Word
  queryDropped : Word
  answerExpired : Word
  notifyMissed : Word
  txFaults : Word
  superseded : Word
  deriving DecidableEq, Repr

/-- Every counter at 0 (R169). -/
def Counters.zero : Counters := ⟨0, 0, 0, 0, 0, 0, 0, 0, 0⟩

/-- The sticky bits 1 to 4 of INT_STATUS (R159). -/
structure Sticky where
  freezeExpired : Bool
  txFault : Bool
  attention : Bool
  submitLost : Bool
  deriving DecidableEq, Repr

/-- A submitted block: its words, and the mark of a wrong count (R153). Its word count is the number of its words. -/
structure Block where
  words : List Word
  wrongCount : Bool
  deriving DecidableEq, Repr

/-- The host command unit but for settings and counters. `data` is D0 to D15 at the latest read (log 15). -/
structure HostUnit where
  staging : Vector Word 8
  stagingPointer : Nat
  commands : List Block
  executing : Bool
  reserved : Nat
  completions : List (Vector Word 8)
  readPointer : Fin 8
  sticky : Sticky
  enable : BitVec 5
  data : Word
  deriving DecidableEq, Repr

/-! ## Maintenance port (chapter 11) -/

/-- The maintenance mode (R182). -/
inductive MaintMode where
  | observe
  | service
  deriving DecidableEq, Repr

/-- Where a POKE stands: none in progress; in frame k+1, holding what R179 says; in frame k+2, with the status of the
failed check if it was refused (R181); in frame k+3. -/
inductive PokeProgress where
  | idle
  | awaitData (slot : Word) (field incarnation : Byte)
  | decided (slot : Word) (field incarnation : Byte) (refusal : Option OutcomeCode)
  | readBack
  deriving DecidableEq, Repr

/-- The maintenance port (R172 to R185). `mdo` is the level on MDO, and `mclk` whether MCLK is high (log 17). -/
structure Maint where
  position : Nat
  shift : MaintFrame
  onesCount : Nat
  lastEdge : Nat
  output : MaintFrame
  poke : PokeProgress
  mode : MaintMode
  mailbox : Option Word
  mdo : Bool
  mclk : Bool
  deriving DecidableEq, Repr

/-- The strap pins as last read (section 6 of 00_scope.md). -/
structure Straps where
  addr : Addr
  rate : BitVec 2
  deriving DecidableEq, Repr

/-! ## The whole part -/

/-- Everything the spec gives the PX512, with the queue of waiting commands and the model's own counter `choices`. -/
structure State where
  slots : Vector Slot 512
  freeQueue : List SlotIx
  lastTouched : LastTouched
  directory : List DirEntry
  zones : Vector Zone 16
  timeBase : Nat
  deferred : List Deferred
  poolFree : Nat
  port : Port
  answers : List Answer
  transmitter : Option Frame
  host : HostUnit
  settings : Settings
  counters : Counters
  maint : Maint
  straps : Straps
  choices : Nat
  pending : List Instr
  deriving DecidableEq, Repr

/-- The PX512 has no fault that stops it: no meaning raises one. Safe. -/
inductive Fault : Type
  deriving DecidableEq, Repr

/-- Why a command has no meaning. -/
inductive Refusal where
  /-- Raised by `exec` alone, for a row that has no meaning yet. Safe: nothing can be proved of what follows. -/
  | notModelled (mnemonic : String)
  deriving DecidableEq, Repr

/-! ## Power-on values -/

/-- A FREE slot of incarnation 0 (R22). -/
def Slot.reset : Slot := ⟨0, none⟩

/-- A zone entry after reset (R38). -/
def Zone.reset : Zone := ⟨.disabled, .closed, 0, 0, 0, 0, 0, none⟩

/-- The point bus port after reset, with the strap levels (R130; `underWay` and `lineTime` by logs 20 and 11). -/
def Port.reset (straps : Straps) : Port := ⟨.offline, straps.addr, .ofStraps straps.rate, 0, false, none, 0⟩

/-- The device settings after reset, with the strap levels (R166). -/
def Settings.reset (straps : Straps) : Settings := ⟨straps.addr, .ofStraps straps.rate, 50, 50⟩

/-- The host command unit after reset (R152, R154, R156, R159, R160; `data` by log 15). -/
def HostUnit.reset : HostUnit :=
  ⟨.replicate 8 0, 0, [], false, 0, [], 0, ⟨false, false, false, false⟩, 0, 0⟩

/-- The maintenance port after reset (R185; `shift` and `lastEdge` by log 20, `mdo` and `mclk` by log 17). -/
def Maint.reset : Maint := ⟨0, 0, 0, 0, BitVec.allOnes 48, .idle, .observe, none, true, false⟩

/-- The part right after power-on or RESET# with the given strap levels; every block takes its own values. -/
def State.powerOn (straps : Straps) : State where
  slots := .replicate 512 .reset
  freeQueue := List.finRange 512
  lastTouched := ⟨0, 0, 0⟩
  directory := []
  zones := .replicate 16 .reset
  timeBase := 0
  deferred := []
  poolFree := 256
  port := .reset straps
  answers := []
  transmitter := none
  host := .reset
  settings := .reset straps
  counters := .zero
  maint := .reset
  straps := straps
  choices := 0
  pending := []

/-- The part right after reset; every strap is low (DESIGN CHOICE, unsafe, log 6). -/
def State.reset : State := .powerOn ⟨0, 0⟩

/-! ## One update per field -/

/-- `s` with `slots` replaced. -/
def State.withSlots (s : State) (x : Vector Slot 512) : State := { s with slots := x }

/-- `s` with `freeQueue` replaced. -/
def State.withFreeQueue (s : State) (x : List SlotIx) : State := { s with freeQueue := x }

/-- `s` with `lastTouched` replaced. -/
def State.withLastTouched (s : State) (x : LastTouched) : State := { s with lastTouched := x }

/-- `s` with `directory` replaced. -/
def State.withDirectory (s : State) (x : List DirEntry) : State := { s with directory := x }

/-- `s` with `zones` replaced. -/
def State.withZones (s : State) (x : Vector Zone 16) : State := { s with zones := x }

/-- `s` with `timeBase` replaced. -/
def State.withTimeBase (s : State) (x : Nat) : State := { s with timeBase := x }

/-- `s` with `deferred` replaced. -/
def State.withDeferred (s : State) (x : List Deferred) : State := { s with deferred := x }

/-- `s` with `poolFree` replaced. -/
def State.withPoolFree (s : State) (x : Nat) : State := { s with poolFree := x }

/-- `s` with `port` replaced. -/
def State.withPort (s : State) (x : Port) : State := { s with port := x }

/-- `s` with `answers` replaced. -/
def State.withAnswers (s : State) (x : List Answer) : State := { s with answers := x }

/-- `s` with `transmitter` replaced. -/
def State.withTransmitter (s : State) (x : Option Frame) : State := { s with transmitter := x }

/-- `s` with `host` replaced. -/
def State.withHost (s : State) (x : HostUnit) : State := { s with host := x }

/-- `s` with `settings` replaced. -/
def State.withSettings (s : State) (x : Settings) : State := { s with settings := x }

/-- `s` with `counters` replaced. -/
def State.withCounters (s : State) (x : Counters) : State := { s with counters := x }

/-- `s` with `maint` replaced. -/
def State.withMaint (s : State) (x : Maint) : State := { s with maint := x }

/-- `s` with `choices` replaced. -/
def State.withChoices (s : State) (x : Nat) : State := { s with choices := x }

/-- `s` with `pending` replaced. -/
def State.withPending (s : State) (x : List Instr) : State := { s with pending := x }

end Sys2Proof.Machine
end

