-- ==== Sys2Proof/Machine/Flags.lean ====
section
/-! DEFINITION. What is computed from fields and never stored: qualities, code numbers, sequence classes, ages, and the
counting of statistics counters. -/

namespace Sys2Proof.Machine

/-! ## The visible image (section 1.4) -/

/-- The qualities of records and frames (R7, R8). `gone` and `nothing` (NONE) are never a record's. -/
inductive Quality where
  | good
  | unset
  | stale
  | forced
  | gone
  | nothing
  deriving DecidableEq, Repr

/-- The quality codes of section 8.2. -/
def Quality.code : Quality → Byte
  | .good => 0
  | .unset => 1
  | .stale => 2
  | .forced => 3
  | .gone => 4
  | .nothing => 5

/-- The visible quality of a record: the first line of R7's table that applies. -/
def Record.quality (r : Record) : Quality :=
  if r.forcedValue.isSome then .forced
  else if r.state = .stale then .stale
  else if r.processValue.isNone then .unset
  else .good

/-- The visible value of a record (R7): the forced value if there is one, else the process value if there is one. -/
def Record.visibleValue (r : Record) : Option (List Byte) :=
  match r.forcedValue with
  | some v => some v
  | none => r.processValue

/-- What R9 compares before and after a step. -/
def Record.image (r : Record) : Quality × Option (List Byte) := (r.quality, r.visibleValue)

/-! ## Outcome codes -/

/-- The numbers of R69. -/
def OutcomeCode.number : OutcomeCode → Byte
  | .ok => 0
  | .created => 1
  | .deferred => 2
  | .duplicate => 3
  | .old => 4
  | .badTag => 16
  | .noZone => 17
  | .noRecord => 18
  | .alreadyExists => 19
  | .notOwner => 20
  | .badLength => 21
  | .quota => 22
  | .tableFull => 23
  | .zoneFrozen => 24
  | .deferFull => 25
  | .poolEmpty => 26
  | .listFull => 27
  | .notForced => 28
  | .alreadyFrozen => 29
  | .notFrozen => 30
  | .quotaTooLow => 31
  | .zoneInUse => 32
  | .busActive => 33
  | .badArgument => 34
  | .badCommand => 35
  | .notPermitted => 48
  | .staleRef => 49
  | .busy => 50

/-! ## Sequence numbers (section 4.2) -/

/-- The classes of R52. -/
inductive SeqClass where
  | duplicate
  | newer
  | older
  deriving DecidableEq, Repr

/-- The class of sequence `s` against a reference: by their difference modulo 256 (R52). -/
def seqClass (reference s : Byte) : SeqClass :=
  let d := (s - reference).toNat
  if d = 0 then .duplicate else if d ≤ 127 then .newer else .older

/-! ## Ages (section 5.8) -/

/-- The age of a record at a time: whole units of 10 ms, at most 65535 (R83). -/
def Record.age (r : Record) (now : Nat) : Word := BitVec.ofNat 16 (min 65535 ((now - r.lastUpdate) / 10))

/-- The time from `now` to a deadline in units of 10 ms, rounded up (R50, R83). -/
def remainingUnits (deadline now : Nat) : Nat := (deadline - now + 9) / 10

/-- The lease remaining of a record: 65535 with no lease deadline (R83). -/
def Record.leaseRemaining (r : Record) (now : Nat) : Word :=
  match r.leaseDeadline with
  | some d => BitVec.ofNat 16 (remainingUnits d now)
  | none => 65535

/-! ## Statistics counters (section 10.10) -/

/-- The counters of R169. -/
inductive CounterId where
  | rxGood
  | rxBad
  | refused
  | oldSeq
  | queryDropped
  | answerExpired
  | notifyMissed
  | txFaults
  | superseded
  deriving DecidableEq, Repr

/-- One more, stopping at 65535 (R169). -/
def saturatingSucc (c : Word) : Word := if c = 65535 then c else c + 1

/-- The value of a counter. -/
def Counters.get (c : Counters) : CounterId → Word
  | .rxGood => c.rxGood
  | .rxBad => c.rxBad
  | .refused => c.refused
  | .oldSeq => c.oldSeq
  | .queryDropped => c.queryDropped
  | .answerExpired => c.answerExpired
  | .notifyMissed => c.notifyMissed
  | .txFaults => c.txFaults
  | .superseded => c.superseded

/-- A counter increased by 1 at the request of the block that owns its cause (R169). -/
def Counters.bump (c : Counters) : CounterId → Counters
  | .rxGood => { c with rxGood := saturatingSucc c.rxGood }
  | .rxBad => { c with rxBad := saturatingSucc c.rxBad }
  | .refused => { c with refused := saturatingSucc c.refused }
  | .oldSeq => { c with oldSeq := saturatingSucc c.oldSeq }
  | .queryDropped => { c with queryDropped := saturatingSucc c.queryDropped }
  | .answerExpired => { c with answerExpired := saturatingSucc c.answerExpired }
  | .notifyMissed => { c with notifyMissed := saturatingSucc c.notifyMissed }
  | .txFaults => { c with txFaults := saturatingSucc c.txFaults }
  | .superseded => { c with superseded := saturatingSucc c.superseded }

/-- The counters in the order in which COUNTERS reports them (R169, R170). -/
def Counters.report (c : Counters) : List Word :=
  [c.rxGood, c.rxBad, c.refused, c.oldSeq, c.queryDropped, c.answerExpired, c.notifyMissed, c.txFaults, c.superseded]

/-- The state with a counter increased by 1. -/
def State.count (k : CounterId) (s : State) : State := s.withCounters (s.counters.bump k)

end Sys2Proof.Machine
end

