-- ==== Sys2Proof/Machine/Operands.lean ====
section
/-! DEFINITION. How operands and results stand in words, payloads and frames: the layouts of chapters 8, 10 and 11. -/

namespace Sys2Proof.Machine

/-! ## Bytes and words -/

/-- Bits 15 to 8 of a word. -/
def highByte (w : Word) : Byte := w.extractLsb' 8 8

/-- Bits 7 to 0 of a word. -/
def lowByte (w : Word) : Byte := w.extractLsb' 0 8

/-- A word of two bytes, the first in bits 15 to 8. -/
def wordOf (hi lo : Byte) : Word := hi ++ lo

/-- A tag of two words: bits 7 to 0 of the first hold bits 23 to 16 (section 10.7). -/
def tagOfWords (hi lo : Word) : Tag := lowByte hi ++ lo

/-- The two words of a tag, laid out as section 10.7 lays out an operand (log 25). -/
def wordsOfTag (t : Tag) : List Word := [(t.extractLsb' 16 8).setWidth 16, t.extractLsb' 0 16]

/-- A tag of three bytes, byte 0 most significant (section 8.2, R118). -/
def tagOfBytes (b0 b1 b2 : Byte) : Tag := b0 ++ b1 ++ b2

/-- A byte of an optional value; an absent value and a byte beyond the length read 0 (R2). -/
def byteAt (v : Option (List Byte)) (k : Nat) : Byte := (v.getD []).getD k 0

/-- Four bytes from byte `base`, the lowest-numbered in bits 31 to 24 (section 11.2). -/
def fourBytes (v : Option (List Byte)) (base : Nat) : BitVec 32 :=
  byteAt v base ++ byteAt v (base + 1) ++ byteAt v (base + 2) ++ byteAt v (base + 3)

/-- The four words that report a value of up to 8 bytes (R163), the bytes placed as section 10.7 places an operand's
(log 25). -/
def wordsOfValue (v : Option (List Byte)) : List Word :=
  [wordOf (byteAt v 0) (byteAt v 1), wordOf (byteAt v 2) (byteAt v 3), wordOf (byteAt v 4) (byteAt v 5),
    wordOf (byteAt v 6) (byteAt v 7)]

/-! ## Command blocks (section 10.7) -/

/-- Word `k` of a block. -/
def Block.word (b : Block) (k : Nat) : Word := b.words.getD k 0

/-- The kinds of the command table. -/
inductive HostKind where
  | create
  | retire
  | write
  | force
  | unforce
  | read
  | list
  | setZone
  | zoneStatus
  | freeze
  | thaw
  | setDevice
  | busStart
  | busStop
  | clearTable
  | counters
  | setMaintMode
  deriving DecidableEq, Repr

/-- The kind of a kind number. -/
def HostKind.ofNumber (k : Byte) : Option HostKind :=
  match k.toNat with
  | 1 => some .create
  | 2 => some .retire
  | 3 => some .write
  | 4 => some .force
  | 5 => some .unforce
  | 6 => some .read
  | 7 => some .list
  | 8 => some .setZone
  | 9 => some .zoneStatus
  | 10 => some .freeze
  | 11 => some .thaw
  | 12 => some .setDevice
  | 13 => some .busStart
  | 14 => some .busStop
  | 15 => some .clearTable
  | 16 => some .counters
  | 17 => some .setMaintMode
  | _ => none

/-- The word counts the table allows for a kind. -/
def HostKind.wordCounts : HostKind → List Nat
  | .create => [4, 8]
  | .retire | .unforce | .read => [3]
  | .write | .force | .list => [8]
  | .setZone => [6]
  | .zoneStatus | .freeze | .thaw | .counters | .setMaintMode => [2]
  | .setDevice => [5]
  | .busStart | .busStop | .clearTable => [1]

/-- The completion entries that the record of a kind has (R154). -/
def HostKind.entries : HostKind → Nat
  | .read | .list | .counters => 2
  | _ => 1

/-- The kind that word 0 of a block names, if any. -/
def Block.named (b : Block) : Option HostKind := HostKind.ofNumber (highByte (b.word 0))

/-- The command a block is, if it is one: a known kind with an allowed word count and no wrong-count mark (R155). -/
def Block.command (b : Block) : Option HostKind :=
  match b.named with
  | some k => if !b.wrongCount && k.wordCounts.contains b.words.length then some k else none
  | none => none

/-- The completion entries a block needs before it is taken: by the kind it names alone (R154). -/
def Block.needs (b : Block) : Nat :=
  match b.named with
  | some k => k.entries
  | none => 1

/-- The tag in words 1 and 2. -/
def Block.tag (b : Block) : Tag := tagOfWords (b.word 1) (b.word 2)

/-- The length in bits 15 to 8 of word 3. -/
def Block.length (b : Block) : Nat := (highByte (b.word 3)).toNat

/-- The producer byte in bits 7 to 0 of word 3. -/
def Block.producer (b : Block) : Nat := (lowByte (b.word 3)).toNat

/-- The eight bytes of words 4 to 7: byte 2k in bits 15 to 8 of word 4 + k. -/
def Block.bytes (b : Block) : List Byte :=
  [highByte (b.word 4), lowByte (b.word 4), highByte (b.word 5), lowByte (b.word 5), highByte (b.word 6),
    lowByte (b.word 6), highByte (b.word 7), lowByte (b.word 7)]

/-- The first `length` bytes of words 4 to 7; the rest are not read (R162). -/
def Block.value (b : Block) : List Byte := b.bytes.take b.length

/-- The producer that an operand names; 0 means HOST (R15). -/
def Producer.ofNumber (n : Nat) : Producer := if n = 0 then .host else .node (BitVec.ofNat 6 n)

/-- The number of a producer, 0 for HOST (R163, R176). -/
def Producer.number : Producer → Byte
  | .host => 0
  | .node a => a.setWidth 8

/-- The zone that a whole word names, if it is 0 to F. -/
def zoneOfWord (w : Word) : Option ZoneIx := if h : w.toNat < 16 then some ⟨w.toNat, h⟩ else none

/-- The status that an operand byte names (section 10.7, R165). -/
def ZoneStatus.ofByte (b : Byte) : Option ZoneStatus :=
  match b.toNat with
  | 0 => some .disabled
  | 1 => some .active
  | _ => none

/-- The admission that an operand byte names (section 10.7, R165). -/
def Admission.ofByte (b : Byte) : Option Admission :=
  match b.toNat with
  | 0 => some .closed
  | 1 => some .opened
  | _ => none

/-- The bit rate of a bit rate code (section 10.7). -/
def BitRate.ofCode (w : Word) : Option BitRate :=
  match w.toNat with
  | 0 => some .kbit125
  | 1 => some .kbit250
  | 2 => some .kbit500
  | 3 => some .kbit1000
  | _ => none

/-- The code of a bit rate (section 10.7). -/
def BitRate.code : BitRate → Word
  | .kbit125 => 0
  | .kbit250 => 1
  | .kbit500 => 2
  | .kbit1000 => 3

/-- The bit times of a millisecond at a bit rate (R116). -/
def BitRate.bitsPerMilli : BitRate → Nat
  | .kbit125 => 125
  | .kbit250 => 250
  | .kbit500 => 500
  | .kbit1000 => 1000

/-- The quiet bit times after which JOINING ends: 2 ms of them (R132). -/
def BitRate.joinBits (x : BitRate) : Nat := Config.joinMillis * x.bitsPerMilli

/-- The maintenance mode that a mode operand names (R171). -/
def MaintMode.ofWord (w : Word) : Option MaintMode :=
  match w.toNat with
  | 0 => some .observe
  | 1 => some .service
  | _ => none

/-- The number of a maintenance mode (R158, R171). -/
def MaintMode.code : MaintMode → Word
  | .observe => 0
  | .service => 1

/-- An own address is valid when it is 1 to 62 (R121). -/
def validAddress (a : Addr) : Bool := a ≠ 0 ∧ a ≠ 63

/-! ## Numbers of states (R158, R163, R176) -/

/-- 1 LIVE, 2 STALE. -/
def Liveness.number : Liveness → Nat
  | .live => 1
  | .stale => 2

/-- 0 none, 1 EXPIRE, 2 RETIRE. -/
def AgeStep.number : AgeStep → Nat
  | .noStep => 0
  | .expire => 1
  | .retire => 2

/-- 0 OFFLINE, 1 JOINING, 2 ONLINE. -/
def PortState.number : PortState → Nat
  | .offline => 0
  | .joining => 1
  | .online => 2

/-! ## Requests of the maintenance port (section 11.2) -/

/-- The request code, bits 47 to 40. -/
def requestCode (f : MaintFrame) : Byte := f.extractLsb' 40 8

/-- The slot, zone or attention code, bits 39 to 24. -/
def requestSlot (f : MaintFrame) : Word := f.extractLsb' 24 16

/-- The field, bits 23 to 16. -/
def requestField (f : MaintFrame) : Byte := f.extractLsb' 16 8

/-- The expected incarnation, bits 15 to 8. -/
def requestIncarnation (f : MaintFrame) : Byte := f.extractLsb' 8 8

/-- The data bits 31 to 0 of a POKE data frame. -/
def frameData (f : MaintFrame) : BitVec 32 := f.extractLsb' 0 32

/-- A response frame: status, echo of the request code, data. -/
def response (status : OutcomeCode) (echo : Byte) (data : BitVec 32) : MaintFrame := status.number ++ echo ++ data

/-- The idle output frame: all 48 bits 1 (R173). -/
def idleFrame : MaintFrame := BitVec.allOnes 48

/-- The slot that 16 bits name, if it is 0 to 511. -/
def slotOfWord (w : Word) : Option SlotIx := if h : w.toNat < 512 then some ⟨w.toNat, h⟩ else none

end Sys2Proof.Machine
end

