-- ==== Sys2Proof/Machine/Ops.lean ====
section
/-! DEFINITION. The operations that several commands share: record store, tag directory, zone table, subscription pool,
answer queue, the apply step, creation, retirement and the thaw. A state comes last, so that steps can be chained. -/

namespace Sys2Proof.Machine

/-! ## Slots, records, zones -/

/-- The slot `i`. -/
def State.slot (s : State) (i : SlotIx) : Slot := s.slots[i.val]

/-- The record in slot `i`, if the slot is LIVE or STALE (R1). -/
def State.record (s : State) (i : SlotIx) : Option Record := (s.slot i).record

/-- The present incarnation of slot `i` (R4). -/
def State.incarnation (s : State) (i : SlotIx) : Byte := (s.slot i).incarnation

/-- Slot `i` replaced. -/
def State.setSlot (i : SlotIx) (x : Slot) (s : State) : State := s.withSlots (s.slots.set i.val x i.isLt)

/-- The record in slot `i` replaced; the incarnation is kept. -/
def State.setRecord (i : SlotIx) (r : Record) (s : State) : State := s.setSlot i ⟨s.incarnation i, some r⟩

/-- The zone entry `z` (R37). -/
def State.zone (s : State) (z : ZoneIx) : Zone := s.zones[z.val]

/-- Zone entry `z` replaced. -/
def State.setZone (z : ZoneIx) (x : Zone) (s : State) : State := s.withZones (s.zones.set z.val x z.isLt)

/-- The change count of a zone increased by 1, wrapping (R45). -/
def bumpChange (z : ZoneIx) (s : State) : State :=
  s.setZone z { s.zone z with changeCount := (s.zone z).changeCount + 1 }

/-- The count of a zone increased by 1 (R41). -/
def countUp (z : ZoneIx) (s : State) : State := s.setZone z { s.zone z with count := (s.zone z).count + 1 }

/-- The count of a zone decreased by 1 (R41). -/
def countDown (z : ZoneIx) (s : State) : State := s.setZone z { s.zone z with count := (s.zone z).count - 1 }

/-- Whether a zone is FROZEN (R46). -/
def State.frozen (s : State) (z : ZoneIx) : Bool := (s.zone z).freeze.isSome

/-- The slots whose record satisfies `p`, ascending. -/
def State.slotsWhere (p : Record → Bool) (s : State) : List SlotIx :=
  s.slots.toList.zipIdx.filterMap fun x =>
    match x.1.record with
    | some r => if p r then some (Fin.ofNat 512 x.2) else none
    | none => none

/-! ## Tag directory (chapter 2) -/

/-- The exact lookup of R25. -/
def State.lookup (s : State) (t : Tag) : Option SlotIx := (s.directory.find? fun e => e.tag = t).map (·.slot)

/-- Insertion in tag order: behind the smaller tags, before the larger ones (R26). -/
def insertEntry (e : DirEntry) : List DirEntry → List DirEntry
  | [] => [e]
  | d :: ds => if e.tag < d.tag then e :: d :: ds else d :: insertEntry e ds

/-- Tag `t` matches pattern `p` under mask `m` (R29). -/
def tagMatches (p m t : Tag) : Bool := t &&& m = p &&& m

/-- The directory entries that match and lie beyond the start-after tag, ascending (R30). -/
def State.matchesBeyond (s : State) (p m a : Tag) : List DirEntry :=
  s.directory.filter fun e => tagMatches p m e.tag && decide (a < e.tag)

/-- The match walk (R30, R31): the entries returned, and whether MORE (else END) is given. -/
def State.walk (s : State) (p m a : Tag) (n : Nat) : List DirEntry × Bool :=
  ((s.matchesBeyond p m a).take n, decide (n < (s.matchesBeyond p m a).length))

/-! ## Subscriptions and notification requests (chapter 7) -/

/-- The subscription of a reference and a node (R108). -/
def State.subscription (s : State) (ref : Ref) (n : Addr) : Option Subscription :=
  match s.record ref.slot with
  | some r => if s.incarnation ref.slot = ref.incarnation then r.subscribers.find? fun x => x.node = n else none
  | none => none

/-- A subscriber list with the marker of node `n` set or cleared. -/
def markNode (n : Addr) (m : Bool) (l : List Subscription) : List Subscription :=
  l.map fun x => if x.node = n then { x with missed := m } else x

/-- The missed marker of the subscription of a reference and a node; without a subscription no marker is touched
(R108). -/
def setMarker (ref : Ref) (n : Addr) (m : Bool) (s : State) : State :=
  match s.record ref.slot with
  | some r =>
    if s.incarnation ref.slot = ref.incarnation then
      s.setRecord ref.slot { r with subscribers := markNode n m r.subscribers }
    else s
  | none => s

/-- Whether an answer entry is a NOTIFY. -/
def Answer.isNotify (a : Answer) : Bool :=
  match a.body with
  | .notify _ _ => true
  | _ => false

/-- Whether an answer entry is an unstarted NOTIFY for a reference and a node. -/
def Answer.isWaitingNotify (ref : Ref) (n : Addr) (a : Answer) : Bool :=
  match a.body with
  | .notify r _ => decide (r = ref) && decide (a.destination = n) && !a.started
  | _ => false

/-- The NOTIFY entries of a queue. -/
def notifyCount (q : List Answer) : Nat := q.countP Answer.isNotify

/-- What the answer queue makes of a notification request (R109). -/
inductive NotifyResult where
  | coalesced
  | admitted
  | refused
  deriving DecidableEq, Repr

/-- The judgement of R109. -/
def State.judgeNotify (s : State) (ref : Ref) (n : Addr) : NotifyResult :=
  if s.answers.any (Answer.isWaitingNotify ref n) then .coalesced
  else if notifyCount s.answers < Config.notifyCapacity ∧ s.answers.length < Config.answerCapacity ∧
      s.port.state ≠ .offline then .admitted
  else .refused

/-- An entry joins the answer queue at the tail, unstarted and without a fault (R137, R138). -/
def joinAnswers (body : AnswerBody) (n : Addr) (t : Tag) (s : State) : State :=
  s.withAnswers (s.answers ++ [⟨body, n, t, s.timeBase, 0, false⟩])

/-- A notification request for the record of tag `t` (R109, R110). -/
def notifyRequest (t : Tag) (ref : Ref) (n : Addr) (s : State) : State :=
  match s.judgeNotify ref n with
  | .coalesced => s
  | .admitted => joinAnswers (.notify ref false) n t s
  | .refused => (setMarker ref n true s).count .notifyMissed

/-- A CONFIRM for a request: it joins when an entry is free, else it is dropped and counted (R138). -/
def confirm (n : Addr) (t : Tag) (q : Byte) (code : OutcomeCode) (s : State) : State :=
  if s.answers.length < Config.answerCapacity then joinAnswers (.confirm q code) n t s else s.count .queryDropped

/-- The subscription entry of a node goes back to the pool (R17, R107). -/
def returnSubscription (i : SlotIx) (n : Addr) (s : State) : State :=
  match s.record i with
  | some r =>
    if r.subscribers.any (fun x => x.node = n) then
      (s.setRecord i { r with subscribers := r.subscribers.eraseP fun x => x.node = n }).withPoolFree (s.poolFree + 1)
    else s
  | none => s

/-! ## Visible changes (section 1.4) -/

/-- The four things of R10, for the record in slot `i`. -/
def visibleChange (i : SlotIx) (s : State) : State :=
  match s.record i with
  | none => s
  | some r =>
    r.subscribers.foldl (fun u x => notifyRequest r.tag ⟨i, s.incarnation i⟩ x.node u)
      ((bumpChange (zoneOf r.tag) (s.setRecord i { r with revision := r.revision + 1 })).withLastTouched
        ⟨i, r.tag, r.revision + 1⟩)

/-- A step on a record: its fields change, and if its image then differs, that is a visible change (R9, R10, R12). -/
def recordStep (i : SlotIx) (f : Record → Record) (s : State) : State :=
  match s.record i with
  | none => s
  | some r =>
    if (f r).image = r.image then s.setRecord i (f r) else visibleChange i (s.setRecord i (f r))

/-! ## Renewal and the apply step (chapters 4 and 5) -/

/-- A renewal at time `t` under the lease setting of the zone (R72). -/
def Record.renewed (lease t : Nat) (r : Record) : Record :=
  match r.producer with
  | .host => r
  | .node _ =>
    { r with
      leaseDeadline := if lease = 0 then r.leaseDeadline else some (t + 10 * lease)
      pendingAge := if r.pendingAge = .expire then .noStep else r.pendingAge }

/-- Steps 1 to 5 of the apply step (R58); `lease` is the zone's setting where renewal is indicated. -/
def Record.applied (v : List Byte) (q : Option Byte) (t : Nat) (lease : Option Nat) (r : Record) : Record :=
  let r1 := { r with processValue := some v, lastSequence := q.or r.lastSequence, lastUpdate := t }
  let r2 := match lease with
    | some l => r1.renewed l t
    | none => r1
  { r2 with state := .live, graceDeadline := if r.state = .stale then none else r.graceDeadline }

/-- The apply step (R58) at the present time, which at a thaw is the thaw time (R59). -/
def applyStep (i : SlotIx) (v : List Byte) (q : Option Byte) (renew : Bool) (s : State) : State :=
  recordStep i
    (fun r => r.applied v q s.timeBase (if renew then some (s.zone (zoneOf r.tag)).lease else none)) s

/-- A renewal that comes without an apply step (R55, R56). -/
def renewAlone (i : SlotIx) (s : State) : State :=
  match s.record i with
  | some r => s.setRecord i (r.renewed (s.zone (zoneOf r.tag)).lease s.timeBase)
  | none => s

/-! ## Creation and retirement (sections 1.5 and 1.6) -/

/-- What a request asks a record to be created with (R15). -/
structure NewRecord where
  tag : Tag
  producer : Producer
  length : Nat
  value : Option (List Byte)
  sequence : Option Byte
  deriving DecidableEq, Repr

/-- The fields of a record at its creation, before its renewal (R15). -/
def NewRecord.fields (n : NewRecord) (t : Nat) : Record :=
  ⟨.live, n.tag, n.producer, n.length, n.value, n.sequence, none, 0, t, none, none, .noStep, []⟩

/-- Creation in the slot at the head of the free-slot queue (R15). -/
def createRecord (n : NewRecord) (s : State) : State :=
  match s.freeQueue with
  | [] => s
  | i :: rest =>
    let z := zoneOf n.tag
    (bumpChange z (countUp z
        ((s.setRecord i ((n.fields s.timeBase).renewed (s.zone z).lease s.timeBase)).withDirectory
          (insertEntry ⟨n.tag, i⟩ s.directory)))).withLastTouched ⟨i, n.tag, 0⟩
      |>.withFreeQueue rest

/-- One subscriber of a retiring record: its GONE request, then its entry goes back to the pool (R17, R114). -/
def goneRequest (t : Tag) (i : SlotIx) (s : State) (x : Subscription) : State :=
  returnSubscription i x.node (notifyRequest t ⟨i, s.incarnation i⟩ x.node s)

/-- The slot becomes FREE under its next incarnation and goes to the tail of the free-slot queue (R4, R17). -/
def freeSlot (i : SlotIx) (s : State) : State :=
  (s.setSlot i ⟨s.incarnation i + 1, none⟩).withFreeQueue (s.freeQueue ++ [i])

/-- Retirement of the record in slot `i` (R17). -/
def retireSlot (i : SlotIx) (s : State) : State :=
  match s.record i with
  | none => s
  | some r =>
    let z := zoneOf r.tag
    let s1 := countDown z (s.withDirectory (s.directory.filter fun e => e ≠ ⟨r.tag, i⟩))
    let s2 := r.subscribers.foldl (goneRequest r.tag i) s1
    (bumpChange z (freeSlot i s2)).withLastTouched ⟨i, r.tag, r.revision + 1⟩

/-! ## Ageing and thaw (chapters 5 and 6) -/

/-- A record of an unfrozen zone becomes STALE at the present time (R75). -/
def makeStale (i : SlotIx) (s : State) : State :=
  recordStep i
    (fun r =>
      { r with
        state := .stale
        graceDeadline :=
          if (s.zone (zoneOf r.tag)).grace = 0 then none
          else some (s.timeBase + 10 * (s.zone (zoneOf r.tag)).grace) })
    s

/-- The pending age step of a record set; this is no visible change (R9). -/
def setPendingAge (i : SlotIx) (p : AgeStep) (s : State) : State :=
  match s.record i with
  | some r => s.setRecord i { r with pendingAge := p }
  | none => s

/-- The deferred entry of the record in slot `i`, under its present incarnation (R53, R89). -/
def State.deferredOf (s : State) (i : SlotIx) : Option Deferred :=
  s.deferred.find? fun e => decide (e.slot = i) && decide (e.incarnation = s.incarnation i)

/-- Whether a deferred entry is of zone `z`: the zone of the tag of the record in its slot (R89; log 23). -/
def State.deferredInZone (s : State) (z : ZoneIx) (e : Deferred) : Bool :=
  match s.record e.slot with
  | some r => zoneOf r.tag = z
  | none => false

/-- A deferred entry taken at the thaw: applied when its incarnation is the slot's (R59, R96). -/
def applyDeferred (s : State) (e : Deferred) : State :=
  if s.incarnation e.slot = e.incarnation then applyStep e.slot e.value (some e.sequence) true s else s

/-- A pending age step taken or dropped at the thaw (R80, R97). -/
def settlePending (s : State) (i : SlotIx) : State :=
  match s.record i with
  | none => s
  | some r =>
    match r.pendingAge, r.state with
    | .expire, .live => makeStale i (setPendingAge i .noStep s)
    | .retire, .stale => retireSlot i s
    | _, _ => setPendingAge i .noStep s

/-- The first stage of the thaw of zone `z` (R95). -/
def unfreeze (z : ZoneIx) (s : State) : State := s.setZone z { s.zone z with freeze := none }

/-- The second stage: the zone's entries leave the deferred queue and are applied, oldest first (R96). -/
def applyParked (z : ZoneIx) (s : State) : State :=
  (s.deferred.filter (s.deferredInZone z)).foldl applyDeferred
    (s.withDeferred (s.deferred.filter fun e => !s.deferredInZone z e))

/-- The third stage: the zone's pending age steps, in ascending slot order (R97). -/
def settleZone (z : ZoneIx) (s : State) : State :=
  (s.slotsWhere fun r => decide (zoneOf r.tag = z) && decide (r.pendingAge ≠ .noStep)).foldl settlePending s

/-- The thaw of zone `z`, one step of three stages (R95 to R98). -/
def thawZone (z : ZoneIx) (s : State) : State := settleZone z (applyParked z (unfreeze z s))

end Sys2Proof.Machine
end

