-- ==== Sys2Proof/Machine/HostPort.lean ====
section
/-! DEFINITION. The host registers, the command and completion queues, and the taking and completing of a command
(chapter 10). -/

namespace Sys2Proof.Machine

/-! ## Completion records (sections 10.3 and 10.4) -/

/-- The completion entry of words `k` to `k + 7`; words not given read 0 (R155). -/
def entryOf (ws : List Word) (k : Nat) : Vector Word 8 :=
  #v[ws.getD k 0, ws.getD (k + 1) 0, ws.getD (k + 2) 0, ws.getD (k + 3) 0, ws.getD (k + 4) 0, ws.getD (k + 5) 0,
    ws.getD (k + 6) 0, ws.getD (k + 7) 0]

/-- The words of a completion record: word 0 of its block, the number of entries and the outcome, the results. -/
def recordWords (b : Block) (entries : Nat) (code : OutcomeCode) (results : List Word) : List Word :=
  b.word 0 :: wordOf (BitVec.ofNat 8 entries) code.number :: results

/-- The entries of a completion record (section 10.4). -/
def completionRecord (b : Block) (entries : Nat) (code : OutcomeCode) (results : List Word) : List (Vector Word 8) :=
  let ws := recordWords b entries code results
  if entries = 2 then [entryOf ws 0, entryOf ws 8] else [entryOf ws 0]

/-- The completion of the command at the head: its record joins the completion queue in place of the reserved entries,
and its block leaves the command queue (R154 to R156). -/
def completeCommand (b : Block) (entries : Nat) (code : OutcomeCode) (results : List Word) (s : State) : State :=
  s.withHost
    { s.host with
      commands := s.host.commands.tail
      executing := false
      reserved := 0
      completions := s.host.completions ++ completionRecord b entries code results
      readPointer := if s.host.completions = [] then 0 else s.host.readPointer }

/-! ## Taking a command (section 10.3) -/

/-- The free entries of the completion queue (R154). -/
def State.freeCompletions (s : State) : Nat :=
  Config.completionCapacity - s.host.completions.length - s.host.reserved

/-- The head block, when it can be taken: no command is executing and it finds the free entries it needs (R154). -/
def State.takeable (s : State) : Option Block :=
  if s.host.executing then none
  else
    match s.host.commands with
    | [] => none
    | b :: _ => if b.needs ≤ s.freeCompletions then some b else none

/-- The taking of a command that completes in its step: the head block, if it can be taken and is of this kind, is
decided by `f`, and its record is written (R155). Otherwise the command is not taken now (log 4). -/
def takeCommand (k : HostKind) (f : Block → State → OutcomeCode × List Word × State) (s : State) : State :=
  match s.takeable with
  | none => s
  | some b =>
    if b.command = some k then
      completeCommand b k.entries (f b s).1 (f b s).2.1 (f b s).2.2
    else s

/-! ## INT_STATUS, INT_ENABLE, INT# and STATUS (sections 10.5 and 10.6) -/

/-- INT_STATUS as it reads (R159): bit 0 COMPLETION, bits 1 to 4 the sticky bits, the others 0 (log 16). -/
def State.intStatus (s : State) : BitVec 5 :=
  BitVec.ofBool s.host.sticky.submitLost ++ BitVec.ofBool s.host.sticky.attention ++
    BitVec.ofBool s.host.sticky.txFault ++ BitVec.ofBool s.host.sticky.freezeExpired ++
    BitVec.ofBool (!s.host.completions.isEmpty)

/-- INT# is asserted while a status bit is 1 whose enable bit is 1 (R160). -/
def State.intAsserted (s : State) : Bool := decide (s.intStatus &&& s.host.enable ≠ 0)

/-- The sticky bits after a write of INT_STATUS: each bit written as 1 is cleared (R159). -/
def Sticky.cleared (x : Sticky) (w : Word) : Sticky :=
  ⟨x.freezeExpired && !w.getLsbD 1, x.txFault && !w.getLsbD 2, x.attention && !w.getLsbD 3,
    x.submitLost && !w.getLsbD 4⟩

/-- STATUS as it reads (R158). -/
def State.statusWord (s : State) : Word :=
  0#4 ++ BitVec.ofBool s.maint.mailbox.isSome ++ BitVec.ofBool (decide (s.maint.mode = .service)) ++
    BitVec.ofNat 2 s.port.state.number ++ BitVec.ofNat 4 s.host.completions.length ++
    BitVec.ofBool s.host.executing ++ BitVec.ofNat 3 s.host.commands.length

/-- A sticky bit set by its source (R159). -/
def raiseFreezeExpired (s : State) : State :=
  s.withHost { s.host with sticky := { s.host.sticky with freezeExpired := true } }

/-- A sticky bit set by its source (R146, R159). -/
def raiseTxFault (s : State) : State :=
  s.withHost { s.host with sticky := { s.host.sticky with txFault := true } }

/-- A sticky bit set by its source (R159, R178). -/
def raiseAttention (s : State) : State :=
  s.withHost { s.host with sticky := { s.host.sticky with attention := true } }

/-- A sticky bit set by its source (R153, R159). -/
def raiseSubmitLost (s : State) : State :=
  s.withHost { s.host with sticky := { s.host.sticky with submitLost := true } }

/-! ## Register accesses (sections 10.1 to 10.6) -/

/-- The word that CPL_DATA holds out: the pointed word of the head entry, 0 on an empty queue (R156). -/
def State.cplWord (s : State) : Word :=
  match s.host.completions with
  | [] => 0
  | e :: _ => e[s.host.readPointer.val]

/-- The word that a read at a register address returns (R151, R156, R158 to R161; log 14). Only the reads of CPL_DATA
and MAINT_MAILBOX also change the state; they are commands. -/
def State.hostRead (s : State) (address : BitVec 3) : Word :=
  match address.toNat with
  | 2 => s.cplWord
  | 4 => s.statusWord
  | 5 => s.intStatus.setWidth 16
  | 6 => s.host.enable.setWidth 16
  | 7 => s.maint.mailbox.getD 0
  | _ => 0

/-- The block that a submission of `n` words copies from the staging buffer (R153). -/
def HostUnit.stagedBlock (h : HostUnit) (n : Nat) : Block :=
  if 1 ≤ n ∧ n ≤ 8 then ⟨h.staging.toList.take n, false⟩ else ⟨h.staging.toList, true⟩

/-- CMD_DATA (R152). -/
def execCmdData (w : Word) (s : State) : Host.Outcome State Fault Refusal :=
  .next
    (if h : s.host.stagingPointer < 8 then
      s.withHost
        { s.host with
          staging := s.host.staging.set s.host.stagingPointer w h
          stagingPointer := s.host.stagingPointer + 1 }
    else s)

/-- CMD_SUBMIT (R153). -/
def execCmdSubmit (w : Word) (s : State) : Host.Outcome State Fault Refusal :=
  .next
    (if s.host.commands.length < Config.commandCapacity then
      s.withHost
        { s.host with
          stagingPointer := 0
          commands := s.host.commands ++ [s.host.stagedBlock w.toNat] }
    else raiseSubmitLost (s.withHost { s.host with stagingPointer := 0 }))

/-- CPL_DATA (R156). -/
def execCplData (s : State) : Host.Outcome State Fault Refusal :=
  .next
    (s.withHost
      { s.host with
        data := s.cplWord
        readPointer := if s.host.completions = [] then 0 else s.host.readPointer + 1 })

/-- CPL_POP, whatever the written value (R157). -/
def execCplPop (_w : Word) (s : State) : Host.Outcome State Fault Refusal :=
  .next
    (match s.host.completions with
    | [] => s
    | _ :: es => s.withHost { s.host with completions := es, readPointer := 0 })

/-- INT_STATUS (R159). -/
def execIntStatus (w : Word) (s : State) : Host.Outcome State Fault Refusal :=
  .next (s.withHost { s.host with sticky := s.host.sticky.cleared w })

/-- INT_ENABLE (R160); the bits above bit 4 enable nothing (log 16). -/
def execIntEnable (w : Word) (s : State) : Host.Outcome State Fault Refusal :=
  .next (s.withHost { s.host with enable := w.extractLsb' 0 5 })

/-- MAINT_MAILBOX (R161). -/
def execMaintMailbox (s : State) : Host.Outcome State Fault Refusal :=
  .next
    ((s.withHost { s.host with data := s.maint.mailbox.getD 0 }).withMaint { s.maint with mailbox := none })

/-- IGNORED_WRITE (R151). -/
def execIgnoredWrite (_register : WriteIgnored) (_w : Word) (s : State) : Host.Outcome State Fault Refusal :=
  .next s

end Sys2Proof.Machine
end

