-- ==== Sys2Proof/Machine/Age.lean ====
section
/-! DEFINITION. What the part takes when a deadline is reached: lease, grace and freeze limit (chapters 5 and 6). -/

namespace Sys2Proof.Machine

/-- Whether a deadline is held and has been reached (R74, R78, R99). -/
def reached (deadline : Option Nat) (now : Nat) : Bool :=
  match deadline with
  | some d => decide (d ≤ now)
  | none => false

/-- The lease deadline of a record removed (R74). -/
def dropLease (i : SlotIx) (s : State) : State :=
  match s.record i with
  | some r => s.setRecord i { r with leaseDeadline := none }
  | none => s

/-- The grace deadline of a record removed (R78). -/
def dropGrace (i : SlotIx) (s : State) : State :=
  match s.record i with
  | some r => s.setRecord i { r with graceDeadline := none }
  | none => s

/-- The lease expiry of the record in slot `i` (R74 to R77). -/
def leaseExpired (i : SlotIx) (r : Record) (s : State) : State :=
  let s1 := dropLease i s
  match r.state with
  | .stale => s1
  | .live => if s.frozen (zoneOf r.tag) then setPendingAge i .expire s1 else makeStale i s1

/-- The grace expiry of the record in slot `i` (R78, R79). -/
def graceExpired (i : SlotIx) (r : Record) (s : State) : State :=
  let s1 := dropGrace i s
  if s.frozen (zoneOf r.tag) then setPendingAge i .retire s1 else retireSlot i s1

/-- LEASE_EXPIRY (R74): taken when the record still holds a lease deadline that the time base has reached (log 4). -/
def execLeaseExpiry (slot : SlotIx) (s : State) : Host.Outcome State Fault Refusal :=
  .next
    (match s.record slot with
    | none => s
    | some r => if reached r.leaseDeadline s.timeBase then leaseExpired slot r s else s)

/-- GRACE_EXPIRY (R78): taken when the record is STALE and still holds a grace deadline that the time base has reached
(log 4). -/
def execGraceExpiry (slot : SlotIx) (s : State) : Host.Outcome State Fault Refusal :=
  .next
    (match s.record slot with
    | none => s
    | some r =>
      if r.state = .stale ∧ reached r.graceDeadline s.timeBase then graceExpired slot r s else s)

/-- FREEZE_LIMIT_EXPIRY (R99): taken when the zone is FROZEN and the time base has reached its freeze deadline
(log 4). -/
def execFreezeLimitExpiry (zone : ZoneIx) (s : State) : Host.Outcome State Fault Refusal :=
  .next
    (if reached (s.zone zone).freeze s.timeBase then raiseFreezeExpired (thawZone zone s) else s)

end Sys2Proof.Machine
end

