-- ==== Sys2Proof/Machine/Arbiter.lean ====
section
/-! DEFINITION. The decisions on requests from the point bus: PUBLISH, WITHDRAW, SUBSCRIBE, UNSUBSCRIBE and QUERY
(chapters 4, 7 and 8). -/

namespace Sys2Proof.Machine

/-! ## Checks shared by the requests that name one record -/

/-- The record of a tag, after the checks BAD_TAG, NO_ZONE and NO_RECORD (R25, R39; log 22). -/
def State.findRecord (s : State) (t : Tag) : Except OutcomeCode (SlotIx × Record) :=
  if t = 0 then .error .badTag
  else if (s.zone (zoneOf t)).status = .disabled then .error .noZone
  else
    match s.lookup t with
    | none => .error .noRecord
    | some i =>
      match s.record i with
      | none => .error .noRecord
      | some r => .ok (i, r)

/-- Whether an outcome is a refusal: codes 16 and above (R69). -/
def OutcomeCode.isRefusal (c : OutcomeCode) : Bool := decide (16 ≤ c.number.toNat)

/-- A bus refusal is counted in REFUSED (R57, R60, R106, R107). -/
def countRefusal (c : OutcomeCode) (s : State) : State := if c.isRefusal then s.count .refused else s

/-! ## PUBLISH (section 4.3) -/

/-- What the arbiter does with a PUBLISH (R54 to R56). -/
inductive PublishVerdict where
  | refuse (code : OutcomeCode)
  | create
  | duplicate (slot : SlotIx)
  | old
  | supersede (slot : SlotIx)
  | park (slot : SlotIx)
  | apply (slot : SlotIx)
  deriving DecidableEq, Repr

/-- The reference of a PUBLISH (R53). -/
def State.reference (s : State) (i : SlotIx) (r : Record) : Option Byte :=
  match s.deferredOf i with
  | some e => some e.sequence
  | none => if r.state = .live then r.lastSequence else none

/-- Check 3 of R54: the creation checks of a PUBLISH whose tag is absent. -/
def State.creationVerdict (s : State) (t : Tag) (v : List Byte) : PublishVerdict :=
  if (s.zone (zoneOf t)).admission = .closed then .refuse .noRecord
  else if s.frozen (zoneOf t) then .refuse .zoneFrozen
  else if (s.zone (zoneOf t)).quota ≤ (s.zone (zoneOf t)).count then .refuse .quota
  else if s.freeQueue = [] then .refuse .tableFull
  else if v.length = 0 then .refuse .badLength
  else .create

/-- R56: a PUBLISH that has passed its sequence check meets the zone's freeze field. -/
def State.freezeVerdict (s : State) (i : SlotIx) (t : Tag) : PublishVerdict :=
  if s.frozen (zoneOf t) then
    if (s.deferredOf i).isSome then .supersede i
    else if Config.deferredCapacity ≤ s.deferred.length then .refuse .deferFull
    else .park i
  else .apply i

/-- Checks 4 and 5 of R54, then R55: a PUBLISH whose tag is present. -/
def State.updateVerdict (s : State) (n : Addr) (i : SlotIx) (r : Record) (t : Tag) (q : Byte) (v : List Byte) :
    PublishVerdict :=
  if r.producer ≠ .node n then .refuse .notOwner
  else if v.length ≠ r.length then .refuse .badLength
  else
    match s.reference i r with
    | none => s.freezeVerdict i t
    | some ref =>
      match seqClass ref q with
      | .duplicate => .duplicate i
      | .older => .old
      | .newer => s.freezeVerdict i t

/-- The decision on a PUBLISH of tag `t`, sequence `q` and value `v` from node `n` (R54 to R56; log 22). -/
def State.publishVerdict (s : State) (n : Addr) (t : Tag) (q : Byte) (v : List Byte) : PublishVerdict :=
  if t = 0 then .refuse .badTag
  else if (s.zone (zoneOf t)).status = .disabled then .refuse .noZone
  else
    match s.lookup t with
    | none => s.creationVerdict t v
    | some i =>
      match s.record i with
      | none => .refuse .noRecord
      | some r => s.updateVerdict n i r t q v

/-- The outcome of a decision on a PUBLISH (R54 to R56). -/
def PublishVerdict.code : PublishVerdict → OutcomeCode
  | .refuse c => c
  | .create => .created
  | .duplicate _ => .duplicate
  | .old => .old
  | .supersede _ => .deferred
  | .park _ => .deferred
  | .apply _ => .ok

/-- The last update time of the record in slot `i` set to the present time (R55). -/
def touchUpdate (i : SlotIx) (s : State) : State :=
  match s.record i with
  | some r => s.setRecord i { r with lastUpdate := s.timeBase }
  | none => s

/-- The deferred entry of the record in slot `i` takes a newer sequence and value in its place (R91). -/
def supersedeEntry (i : SlotIx) (q : Byte) (v : List Byte) (s : State) : State :=
  s.withDeferred
    (s.deferred.map fun e =>
      if e.slot = i ∧ e.incarnation = s.incarnation i then { e with sequence := q, value := v } else e)

/-- A new deferred entry at the tail (R90). -/
def parkEntry (i : SlotIx) (q : Byte) (v : List Byte) (s : State) : State :=
  s.withDeferred (s.deferred ++ [⟨i, s.incarnation i, q, v⟩])

/-- The change that a decision on a PUBLISH makes (R54 to R56, R90, R91). -/
def PublishVerdict.act (d : PublishVerdict) (n : Addr) (t : Tag) (q : Byte) (v : List Byte) (s : State) : State :=
  match d with
  | .refuse _ => s
  | .create => createRecord ⟨t, .node n, v.length, some v, some q⟩ s
  | .duplicate i => touchUpdate i (renewAlone i s)
  | .old => s.count .oldSeq
  | .supersede i => (renewAlone i (supersedeEntry i q v s)).count .superseded
  | .park i => renewAlone i (parkEntry i q v s)
  | .apply i => applyStep i v (some q) true s

/-- Bit 0 of the flags: CONFIRM-REQUEST (section 8.2). -/
def wantsConfirm (flags : Byte) : Bool := flags.getLsbD 0

/-- A PUBLISH: decided, counted, confirmed if it asked for it, then carried out; the CONFIRM goes to the answer queue
ahead of the notification requests (R57). -/
def doPublish (n : Addr) (t : Tag) (q flags : Byte) (v : List Byte) (s : State) : State :=
  let d := s.publishVerdict n t q v
  let s1 := countRefusal d.code s
  let s2 := if wantsConfirm flags then confirm n t q d.code s1 else s1
  d.act n t q v s2

/-! ## WITHDRAW (section 4.5) -/

/-- The checks of R60. -/
def State.withdrawVerdict (s : State) (n : Addr) (t : Tag) : Except OutcomeCode SlotIx :=
  match s.findRecord t with
  | .error c => .error c
  | .ok (i, r) =>
    if r.producer ≠ .node n then .error .notOwner
    else if s.frozen (zoneOf t) then .error .zoneFrozen
    else .ok i

/-- A WITHDRAW: its CONFIRM goes ahead of the GONE requests of the retirement (R60). -/
def doWithdraw (n : Addr) (t : Tag) (q : Byte) (s : State) : State :=
  match s.withdrawVerdict n t with
  | .error c => confirm n t q c (countRefusal c s)
  | .ok i => retireSlot i (confirm n t q .ok s)

/-! ## SUBSCRIBE and UNSUBSCRIBE (sections 7.3 and 7.4) -/

/-- A subscription entry is taken from the pool and appended to the list of slot `i`, its marker clear (R105). -/
def addSubscription (i : SlotIx) (n : Addr) (s : State) : State :=
  match s.record i with
  | some r => (s.setRecord i { r with subscribers := r.subscribers ++ [⟨n, false⟩] }).withPoolFree (s.poolFree - 1)
  | none => s

/-- What a SUBSCRIBE comes to (R105). -/
inductive SubscribeVerdict where
  | refuse (code : OutcomeCode)
  | already
  | append (slot : SlotIx)
  deriving DecidableEq, Repr

/-- The checks of R105. -/
def State.subscribeVerdict (s : State) (n : Addr) (t : Tag) : SubscribeVerdict :=
  match s.findRecord t with
  | .error c => .refuse c
  | .ok (i, r) =>
    if r.subscribers.any (fun x => x.node = n) then .already
    else if Config.listCapacity ≤ r.subscribers.length then .refuse .listFull
    else if s.poolFree = 0 then .refuse .poolEmpty
    else .append i

/-- A SUBSCRIBE: its CONFIRM goes ahead of the initial notification request (R105, R106). -/
def doSubscribe (n : Addr) (t : Tag) (q : Byte) (s : State) : State :=
  match s.subscribeVerdict n t with
  | .refuse c => confirm n t q c (countRefusal c s)
  | .already => confirm n t q .ok s
  | .append i => notifyRequest t ⟨i, s.incarnation i⟩ n (confirm n t q .ok (addSubscription i n s))

/-- An UNSUBSCRIBE (R107): without an entry of the node it changes nothing. -/
def doUnsubscribe (n : Addr) (t : Tag) (q : Byte) (s : State) : State :=
  match s.findRecord t with
  | .error c => confirm n t q c (countRefusal c s)
  | .ok (i, _) => confirm n t q .ok (returnSubscription i n s)

/-! ## QUERY (section 8.6) -/

/-- The mask of a QUERY payload, bytes 0 to 2 (R118). -/
def queryMask (p : List Byte) : Tag := tagOfBytes (p.getD 0 0) (p.getD 1 0) (p.getD 2 0)

/-- The start-after tag of a QUERY payload, bytes 3 to 5 (R118). -/
def queryAfter (p : List Byte) : Tag := tagOfBytes (p.getD 3 0) (p.getD 4 0) (p.getD 5 0)

/-- The limit of a QUERY payload, byte 6 (R118). -/
def queryLimit (p : List Byte) : Nat := (p.getD 6 0).toNat

/-- Whether a QUERY is bad as a request (R127). -/
def badQuery (pattern : Tag) (p : List Byte) : Bool :=
  decide (p.length ≠ 7) || decide (queryLimit p = 0) || decide (4 < queryLimit p) ||
    (decide (pattern = 0) && decide (queryMask p = 0xFFFFFF))

/-- The REPLY bodies of a walk, in the order of its entries; the last one carries MORE or END (R128). -/
def replyBodies (s : State) (more : Bool) : List DirEntry → List (AnswerBody × Tag)
  | [] => []
  | [e] => [(.reply (some ⟨e.slot, s.incarnation e.slot⟩) more (!more) false, e.tag)]
  | e :: es => (.reply (some ⟨e.slot, s.incarnation e.slot⟩) false false false, e.tag) :: replyBodies s more es

/-- A QUERY from node `n` (R127, R128). -/
def doQuery (n : Addr) (pattern : Tag) (p : List Byte) (s : State) : State :=
  let free := Config.answerCapacity - s.answers.length
  if free = 0 then s.count .queryDropped
  else if badQuery pattern p then joinAnswers (.reply none false false true) n pattern s
  else
    match s.walk pattern (queryMask p) (queryAfter p) (min (queryLimit p) free) with
    | ([], _) => joinAnswers (.reply none false true true) n pattern s
    | (es, more) => (replyBodies s more es).foldl (fun u b => joinAnswers b.1 n b.2 u) s

end Sys2Proof.Machine
end

