-- ==== Sys2Proof/Machine/Line.lean ====
section
/-! DEFINITION. The bits of a frame on the point bus, its check, and the frame that a sequence of bits is (section 8.2). -/

namespace Sys2Proof.Machine

/-- The bits of a field, most significant first. -/
def bitsOf {w : Nat} (x : BitVec w) : List Bool := (List.range w).map fun i => x.getMsbD i

/-- The number that bits spell, most significant first. -/
def natOfBits (l : List Bool) : Nat := l.foldl (fun a b => 2 * a + b.toNat) 0

/-- One bit through the check register: polynomial x^16 + x^12 + x^5 + 1 (R119). -/
def crcStep (r : BitVec 16) (b : Bool) : BitVec 16 :=
  if r.msb ^^ b then (r <<< 1) ^^^ 0x1021#16 else r <<< 1

/-- The check of a sequence of bits: the register starts at FFFFh and is not inverted (R119). -/
def crcOf (l : List Bool) : BitVec 16 := l.foldl crcStep 0xFFFF#16

/-- The bits from the destination to the last payload bit (section 8.2). -/
def Frame.bodyBits (f : Frame) : List Bool :=
  bitsOf f.destination ++ bitsOf f.source ++ bitsOf f.kind ++ bitsOf f.tag ++ bitsOf f.sequence ++ bitsOf f.flags ++
    bitsOf f.code ++ bitsOf (BitVec.ofNat 4 f.payload.length) ++ f.payload.flatMap bitsOf

/-- The bits of the whole frame, its check last (R119). -/
def Frame.bits (f : Frame) : List Bool := f.bodyBits ++ bitsOf (crcOf f.bodyBits)

/-- The field of `n` bits that starts at bit `i`. -/
def fieldAt (l : List Bool) (i n : Nat) : BitVec n := BitVec.ofNat n (natOfBits ((l.drop i).take n))

/-- The payload bytes of `k` bytes from bit `i`. -/
def payloadAt (l : List Bool) (i : Nat) : Nat → List Byte
  | 0 => []
  | k + 1 => fieldAt l i 8 :: payloadAt l (i + 8) k

/-- The frame that bits read from the line are, unless their count disagrees with their length field or their check is
wrong (R118, check 1 of R124). -/
def parseFrame (l : List Bool) : Option Frame :=
  let n := (fieldAt l 64 4).toNat
  if n ≤ 8 ∧ l.length = 84 + 8 * n ∧ crcOf (l.take (68 + 8 * n)) = fieldAt l (68 + 8 * n) 16 then
    some ⟨fieldAt l 0 6, fieldAt l 6 6, fieldAt l 12 4, fieldAt l 16 24, fieldAt l 40 8, fieldAt l 48 8,
      fieldAt l 56 8, payloadAt l 68 n⟩
  else none

/-- The kind values of the kind table. -/
def kindTable : List (BitVec 4) := [1, 2, 3, 4, 5, 8, 9, 10]

/-- The kinds that the PX512 sends, and so does not take. -/
def sentKinds : List (BitVec 4) := [8, 9, 10]

/-- What becomes of a bit that the port drives, by its place in the frame and the reading (R129). -/
inductive AttemptEnd where
  | goesOn
  | lost
  | fault
  deriving DecidableEq, Repr

/-- The bit comparison of R129: destination and source are bits 0 to 11. -/
def compareBit (place : Nat) (driven : Bool) (r : Reading) : AttemptEnd :=
  match driven, r with
  | true, .one => .goesOn
  | false, .zero => .goesOn
  | true, .zero => if place < 12 then .lost else .fault
  | true, .quiet => .fault
  | false, .one => .fault
  | false, .quiet => .fault

end Sys2Proof.Machine
end

