-- ==== Sys2Proof/Machine/Bus.lean ====
section
/-! DEFINITION. Receiving a frame on the point bus, and the commands that are frames or line events of JOINING
(chapter 8). -/

namespace Sys2Proof.Machine

/-- Whether the port reads the frames of other stations: in JOINING and ONLINE, and not while a stop is pending (R122,
R134). -/
def State.reads (s : State) : Bool := decide (s.port.state ≠ .offline) && !s.port.stopPending

/-- Whether readings of the line reach the port as a receiver: it reads, and it is not driving a frame of its own, whose
readings are the attempt's (R122, R129). -/
def State.listens (s : State) : Bool := s.reads && s.transmitter.isNone

/-- The owner of a received kind decides the frame (R126). -/
def dispatchFrame (f : Frame) (s : State) : State :=
  match f.kind.toNat with
  | 1 => doPublish f.source f.tag f.sequence f.flags f.payload s
  | 2 => doQuery f.source f.tag f.payload s
  | 3 => doWithdraw f.source f.tag f.sequence s
  | 4 => doSubscribe f.source f.tag f.sequence s
  | 5 => doUnsubscribe f.source f.tag f.sequence s
  | _ => s

/-- What the reception checks make of a frame (R124, R125). -/
inductive Reception where
  | bad
  | ignored
  | dispatched
  deriving DecidableEq, Repr

/-- The reception checks 2 to 6 of R124; a frame with the own address as source that comes here is not the port's own
(R125, log 8). -/
def State.checkFrame (s : State) (f : Frame) : Reception :=
  if f.source = 0 ∨ f.source = 63 ∨ !kindTable.contains f.kind then .bad
  else if f.source = s.port.ownAddress then .bad
  else if f.destination ≠ s.port.ownAddress ∧ f.destination ≠ 63 then .ignored
  else if sentKinds.contains f.kind ∨ (f.destination = 63 ∧ f.kind ≠ 1) then .ignored
  else .dispatched

/-- A frame of another station has ended on the line; `none` is one that fails check 1 (R124 to R126). -/
def receive (x : Option Frame) (s : State) : State :=
  match x with
  | none => s.count .rxBad
  | some f =>
    match s.checkFrame f with
    | .bad => s.count .rxBad
    | .ignored => s
    | .dispatched => dispatchFrame f (s.count .rxGood)

/-! ## Readings of the line (section 8.1) -/

/-- So many quiet bit times with no frame under way: the quiet time goes up, and in JOINING the port comes ONLINE when it
reaches 2 ms (R132). -/
def waitQuiet (n : Nat) (s : State) : State :=
  s.withPort
    { s.port with
      quietTime := s.port.quietTime + n
      lineTime := s.port.lineTime + n
      state :=
        if s.port.state = .joining ∧ s.port.bitRate.joinBits ≤ s.port.quietTime + n then .online else s.port.state }

/-- The quiet bit time that ends a frame of `n` bits, which is then taken as one event (R117, R123). -/
def closeFrame (n : Nat) (x : Option Frame) (s : State) : State :=
  receive x
    (s.withPort { s.port with quietTime := 1, underWay := none, lineTime := s.port.lineTime + n + 1 })

/-- So many quiet bit times: the first of them ends a frame that is under way (R117). -/
def passQuiet (n : Nat) (s : State) : State :=
  match n, s.port.underWay with
  | 0, _ => s
  | n, none => waitQuiet n s
  | n + 1, some l => waitQuiet n (closeFrame 0 (parseFrame l) s)

/-- Whether the line is idle, as the port has read it: 11 bit times of quiet without a break (R117). -/
def State.lineIdle (s : State) : Bool := s.port.underWay.isNone && decide (Config.idleBits ≤ s.port.quietTime)

/-- The frame under way once a 0 or 1 is read: it goes on with it, or starts one after 11 quiet bit times, or is of no
frame (R117). -/
def withBit (b : Bool) (quiet : Nat) (underWay : Option (List Bool)) : Option (List Bool) :=
  match underWay with
  | some l => some (l ++ [b])
  | none => if Config.idleBits ≤ quiet then some [b] else none

/-- A 0 or 1 read: it is of the frame under way, if there is one now, and breaks the quiet (R117, R132). -/
def takeBit (b : Bool) (s : State) : State :=
  s.withPort
    { s.port with
      quietTime := 0
      lineTime := s.port.lineTime + 1
      underWay := withBit b s.port.quietTime s.port.underWay }

/-- One reading of the line (R116, R117). -/
def readLine (s : State) (r : Reading) : State :=
  match r with
  | .zero => takeBit false s
  | .one => takeBit true s
  | .quiet => passQuiet 1 s

/-- The reading of a driven bit (R116). -/
def readingOf (b : Bool) : Reading := if b then .one else .zero

/-- The readings of a whole frame, with the quiet bit time that ends it (R117). -/
def Frame.readings (f : Frame) : List Reading := f.bits.map readingOf ++ [.quiet]

/-- A frame given by its fields, as the port reads it: with more than 8 payload bytes its length field cannot agree
with its bit count (R118). -/
def onLine (f : Frame) : Option Frame := if f.payload.length ≤ 8 then some f else none

/-- The frames that end in readings of the line, from a quiet time and the frame under way, if any (R117); `none` is one
that fails check 1 (R124). -/
def endedFrames : (quiet : Nat) → (underWay : Option (List Bool)) → List Reading → List (Option Frame)
  | _, _, [] => []
  | quiet, none, .quiet :: rs => endedFrames (quiet + 1) none rs
  | _, some l, .quiet :: rs => parseFrame l :: endedFrames 1 none rs
  | quiet, w, .zero :: rs => endedFrames 0 (withBit false quiet w) rs
  | quiet, w, .one :: rs => endedFrames 0 (withBit true quiet w) rs

/-- Frames taken in an attempt, with the port's line left to the attempt: frames that ended before it and are taken only
now (R123, R150), or the frame on the line when it goes on behind the last bit sent and so is not the port's own (R125;
log 8). -/
def takeLate (frames : List (Option Frame)) (s : State) : State := frames.foldl (fun u x => receive x u) s

/-- A whole frame that starts on the idle line: 11 quiet bit times, and then its readings, at whose end it is taken
(R117, R123). In an attempt it is one that ended before (log 8). -/
def passFrame (f : Frame) (s : State) : State :=
  if s.listens then closeFrame f.bits.length (onLine f) (passQuiet Config.idleBits s)
  else if s.reads then takeLate [onLine f] s
  else s

/-! ## The commands -/

/-- FRAME_DROPPED: any readings of the line (R116, R117, R124). A frame among them that the port takes is taken. In an
attempt the readings begin on an idle line (log 8). -/
def execFrameDropped (readings : List Reading) (s : State) : Host.Outcome State Fault Refusal :=
  .next
    (if s.listens then readings.foldl readLine s
     else if s.reads then takeLate (endedFrames Config.idleBits none readings) s
     else s)

/-- PUBLISH (R54 to R57, R124, R126); the code field is not read (R118). -/
def execPublish (dst src : Addr) (tag : Tag) (seq flags : Byte) (value : List Byte) (s : State) :
    Host.Outcome State Fault Refusal :=
  .next (passFrame ⟨dst, src, 1, tag, seq, flags, 0, value⟩ s)

/-- WITHDRAW (R60, R124, R126); flags, code and payload are not read (R118). -/
def execWithdraw (dst src : Addr) (tag : Tag) (seq : Byte) (s : State) : Host.Outcome State Fault Refusal :=
  .next (passFrame ⟨dst, src, 3, tag, seq, 0, 0, []⟩ s)

/-- SUBSCRIBE (R105, R106, R124, R126); flags, code and payload are not read (R118). -/
def execSubscribe (dst src : Addr) (tag : Tag) (seq : Byte) (s : State) : Host.Outcome State Fault Refusal :=
  .next (passFrame ⟨dst, src, 4, tag, seq, 0, 0, []⟩ s)

/-- UNSUBSCRIBE (R107, R124, R126); flags, code and payload are not read (R118). -/
def execUnsubscribe (dst src : Addr) (tag : Tag) (seq : Byte) (s : State) : Host.Outcome State Fault Refusal :=
  .next (passFrame ⟨dst, src, 5, tag, seq, 0, 0, []⟩ s)

/-- QUERY (R127, R128, R124, R126); sequence, flags and code are not read (R118). -/
def execQuery (dst src : Addr) (pattern : Tag) (payload : List Byte) (s : State) : Host.Outcome State Fault Refusal :=
  .next (passFrame ⟨dst, src, 2, pattern, 0, 0, 0, payload⟩ s)

/-- BUS_ONLINE (R132): quiet bit times, which in JOINING bring the port ONLINE once there are 2 ms of them. -/
def execBusOnline (quiet : Nat) (s : State) : Host.Outcome State Fault Refusal :=
  .next (if s.listens then passQuiet quiet s else s)

end Sys2Proof.Machine
end

