-- ==== Sys2Proof/Machine/Transmit.lean ====
section
/-! DEFINITION. The transmitter: attempt start, binding, the ends of an attempt, and the end of a stop (chapters 8 and
9). -/

namespace Sys2Proof.Machine

/-! ## Discards and the end of BUS_STOP -/

/-- An entry that leaves the queue unsent: a NOTIFY sets the missed marker of its subscription (R112). -/
def markUnsent (s : State) (a : Answer) : State :=
  match a.body with
  | .notify ref _ => setMarker ref a.destination true s
  | _ => s

/-- Every entry of the answer queue discarded (R133). -/
def discardAll (s : State) : State := (s.answers.foldl markUnsent s).withAnswers []

/-- Steps 1 to 3 of R133: a frame partly received is discarded, the queue is emptied and the port goes OFFLINE, with no
stop pending (R134). -/
def goOffline (s : State) : State :=
  (discardAll s).withPort
    { s.port with state := .offline, quietTime := 0, stopPending := false, underWay := none, lineTime := 0 }

/-- The completion of a pending BUS_STOP: the executing command is the head block (R134, R168). -/
def completeStop (s : State) : State :=
  match s.host.commands with
  | [] => s.withHost { s.host with executing := false, reserved := 0 }
  | b :: _ => completeCommand b HostKind.busStop.entries .ok [] s

/-- The transmitter becomes free; under a pending stop the port goes OFFLINE and BUS_STOP completes, in the same event
(R134, R144 to R146). -/
def endAttempt (s : State) : State :=
  let s1 := s.withTransmitter none
  if s.port.stopPending then completeStop (goOffline s1) else s1

/-! ## Attempt start (section 9.4) -/

/-- Whether an entry is of class A (R137). -/
def Answer.classA (a : Answer) : Bool := !a.isNotify

/-- The place of the next candidate: the oldest class A entry, else the oldest entry (R140). -/
def candidatePlace (q : List Answer) : Nat := (q.findIdx? Answer.classA).getD 0

/-- The flags byte: MORE, END, NOT_FOUND, MISSED in bits 1 to 4 (section 8.2). -/
def flagsByte (more last notFound missed : Bool) : Byte :=
  0#3 ++ BitVec.ofBool missed ++ BitVec.ofBool notFound ++ BitVec.ofBool last ++ BitVec.ofBool more ++ 0#1

/-- The quality, revision byte and value that a frame about a record takes at its binding (R142, R120). -/
def State.bindRecord (s : State) (ref : Ref) : Quality × Byte × List Byte :=
  match s.record ref.slot with
  | some r =>
    if s.incarnation ref.slot = ref.incarnation then (r.quality, lowByte r.revision, r.visibleValue.getD [])
    else (.gone, 0, [])
  | none => (.gone, 0, [])

/-- The frame of an answer entry, bound now (R120, R142). -/
def State.bindAnswer (s : State) (a : Answer) : Frame :=
  match a.body with
  | .reply (some ref) more last notFound =>
    let b := s.bindRecord ref
    ⟨a.destination, s.port.ownAddress, 8, a.tag, b.2.1, flagsByte more last notFound false, b.1.code, b.2.2⟩
  | .reply none more last notFound =>
    ⟨a.destination, s.port.ownAddress, 8, a.tag, 0, flagsByte more last notFound false, Quality.nothing.code, []⟩
  | .notify ref missed =>
    let b := s.bindRecord ref
    ⟨a.destination, s.port.ownAddress, 9, a.tag, b.2.1, flagsByte false false false missed, b.1.code, b.2.2⟩
  | .confirm q code => ⟨a.destination, s.port.ownAddress, 10, a.tag, q, 0, code.number, []⟩

/-- A NOTIFY takes the marker of its subscription into its MISSED flag (R111). -/
def State.takeMissed (s : State) (a : Answer) : Answer :=
  match a.body with
  | .notify ref missed =>
    { a with body := .notify ref (missed || ((s.subscription ref a.destination).map (·.missed)).getD false) }
  | _ => a

/-- The marker that a NOTIFY takes is cleared (R111). -/
def clearTaken (a : Answer) (s : State) : State :=
  match a.body with
  | .notify ref _ => setMarker ref a.destination false s
  | _ => s

/-- The entry at place `k` is bound and started, and the transmitter is in an attempt (R142). -/
def startEntry (k : Nat) (a : Answer) (s : State) : State :=
  let a' := s.takeMissed a
  ((clearTaken a s).withAnswers (s.answers.set k { a' with started := true })).withTransmitter (some (s.bindAnswer a'))

/-- A candidate whose lifetime has run out is discarded (R141). -/
def expireEntry (k : Nat) (a : Answer) (s : State) : State :=
  (markUnsent (s.withAnswers (s.answers.eraseIdx k)) a).count .answerExpired

/-- The choice of R140 and R141, for at most `n` discards: candidates that have waited too long are discarded, the first
other one starts. -/
def startAttempt : Nat → State → State
  | 0, s => s
  | n + 1, s =>
    match s.answers[candidatePlace s.answers]? with
    | none => s
    | some a =>
      if s.settings.answerLifetime < s.timeBase - a.enqueueTime then
        startAttempt n (expireEntry (candidatePlace s.answers) a s)
      else startEntry (candidatePlace s.answers) a s

/-- Whether an attempt can start: the transmitter is free, the port ONLINE without a stop pending, and the line idle
(R140). -/
def State.mayAttempt (s : State) : Bool :=
  s.transmitter.isNone && decide (s.port.state = .online) && !s.port.stopPending && s.lineIdle

/-- The attempt start, when one can start; else nothing happens (R140 to R142; log 4). -/
def tryAttempt (s : State) : State := if s.mayAttempt then startAttempt s.answers.length s else s

/-- ATTEMPT_START (R140 to R142), after so many quiet bit times. -/
def execAttemptStart (quiet : Nat) (s : State) : Host.Outcome State Fault Refusal :=
  .next (tryAttempt (if s.listens then passQuiet quiet s else s))

/-! ## Attempt ends (section 9.5) -/

/-- The started entry. -/
def State.startedEntry (s : State) : Option Answer := s.answers.find? (·.started)

/-- The queue without its started entry. -/
def withoutStarted (s : State) : State := s.withAnswers (s.answers.eraseP (·.started))

/-- The MISSED flag of a removed duplicate goes back to its subscription (R113). -/
def passOnMissed (ref : Ref) (n : Addr) (missed : Bool) (s : State) : State :=
  if missed then setMarker ref n true s else s

/-- The started entry becomes unstarted in its place, with a fault count. -/
def unstart (faults : Nat) (s : State) : State :=
  s.withAnswers (s.answers.map fun a => if a.started then { a with started := false, faultCount := faults } else a)

/-- The started entry `a` returns to unstarted with a fault count; a NOTIFY that finds an unstarted one of its triple is
removed instead (R113, R145, R146). -/
def returnEntry (a : Answer) (faults : Nat) (s : State) : State :=
  match a.body with
  | .notify ref missed =>
    if s.answers.any (Answer.isWaitingNotify ref a.destination) then
      passOnMissed ref a.destination missed (withoutStarted s)
    else unstart faults s
  | _ => unstart faults s

/-- The port as a receiver when an attempt breaks off behind these bits: they are a frame under way, unless there are
none (R117, R129; log 10). -/
def leaveLine (l : List Bool) (s : State) : State :=
  s.withPort
    { s.port with
      underWay := if l = [] then none else some l
      quietTime := if l = [] then s.port.quietTime else 0
      lineTime := s.port.lineTime + l.length }

/-- The port as a receiver when the frame it sent has ended with the first quiet bit time. Its own echo is no frame of
another station; one that went on behind the last bit sent comes as FRAME_DROPPED before (R117, R125, R144; log 8). -/
def endEcho (f : Frame) (s : State) : State :=
  s.withPort
    { s.port with underWay := none, quietTime := 1, lineTime := s.port.lineTime + f.bits.length + 1 }

/-- A reading that has ended an attempt reaches the port as a receiver, unless it has gone OFFLINE (R117, R125, R134). -/
def seeReading (r : Reading) (s : State) : State := if s.listens then readLine s r else s

/-- ATTEMPT_SENT (R144, R134): the frame has ended with its first quiet bit time (R129); without an attempt nothing ends
(log 4). -/
def execAttemptSent (s : State) : Host.Outcome State Fault Refusal :=
  .next
    (match s.transmitter with
    | none => s
    | some f => endAttempt (withoutStarted (endEcho f s)))

/-- What the bit comparison says of a reading in a place of the frame on the line; outside it nothing ends (R129). -/
def attemptVerdict (f : Frame) (place : Nat) (r : Reading) : AttemptEnd :=
  match f.bits[place]? with
  | some driven => compareBit place driven r
  | none => .goesOn

/-- The attempt of a lost or faulted started entry comes to its end: the entry returns, or is discarded at the fault
limit (R145, R146). -/
def loseAttempt (s : State) : State :=
  match s.startedEntry with
  | none => endAttempt s
  | some a => endAttempt (returnEntry a a.faultCount s)

/-- FAULT of the attempt (R146). -/
def faultAttempt (s : State) : State :=
  match s.startedEntry with
  | none => endAttempt s
  | some a =>
    if a.faultCount + 1 < Config.faultLimit then endAttempt (returnEntry a (a.faultCount + 1) s)
    else endAttempt (raiseTxFault ((markUnsent (withoutStarted s) a).count .txFaults))

/-- ATTEMPT_LOST (R129, R145, R134): taken when the frame on the line has a 1 in that bit of destination or source;
else the attempt goes on (log 4, log 12). The bits read so far are the winner's, whose frame is under way (R125). -/
def execAttemptLost (bit : Nat) (s : State) : Host.Outcome State Fault Refusal :=
  .next
    (match s.transmitter with
    | none => s
    | some f =>
      if attemptVerdict f bit .zero = .lost then seeReading .zero (loseAttempt (leaveLine (f.bits.take bit) s))
      else s)

/-- ATTEMPT_FAULT (R129, R146, R134): taken when that reading of that bit is a fault; else the attempt goes on (log 4,
log 12). What was read so far is a frame under way, which ends short when the line falls quiet (R117, R125). -/
def execAttemptFault (bit : Nat) (reading : Reading) (s : State) : Host.Outcome State Fault Refusal :=
  .next
    (match s.transmitter with
    | none => s
    | some f =>
      if attemptVerdict f bit reading = .fault then
        seeReading reading (faultAttempt (leaveLine (f.bits.take bit) s))
      else s)

end Sys2Proof.Machine
end

