-- ==== Sys2Proof/Machine/Commands.lean ====
section
/-! DEFINITION. The host commands: each is the taking of the head block of the command queue (chapter 10). Every
decision answers an outcome, the result words and the state. -/

namespace Sys2Proof.Machine

/-- A refusal: the outcome, no result words, and nothing changed (R69, R155). -/
def refuse (c : OutcomeCode) (s : State) : OutcomeCode × List Word × State := (c, [], s)

/-- OK with no result words. -/
def done (s : State) : OutcomeCode × List Word × State := (.ok, [], s)

/-! ## Record commands (section 4.6) -/

/-- The checks of a host CREATE (R14). -/
def State.createVerdict (s : State) (length producer : Nat) (t : Tag) : OutcomeCode :=
  if length < 1 ∨ 8 < length ∨ 62 < producer then .badArgument
  else if t = 0 then .badTag
  else if (s.zone (zoneOf t)).status = .disabled then .noZone
  else if (s.lookup t).isSome then .alreadyExists
  else if s.frozen (zoneOf t) then .zoneFrozen
  else if (s.zone (zoneOf t)).quota ≤ (s.zone (zoneOf t)).count then .quota
  else if s.freeQueue = [] then .tableFull
  else .ok

/-- CREATE (R14 to R16, R61, R162): an 8-word block gives an initial value. -/
def decideCreate (b : Block) (s : State) : OutcomeCode × List Word × State :=
  match s.createVerdict b.length b.producer b.tag, s.freeQueue with
  | .ok, i :: _ =>
    (.ok, [BitVec.ofNat 16 i.val, (s.incarnation i).setWidth 16],
      createRecord
        ⟨b.tag, Producer.ofNumber b.producer, b.length, if b.words.length = 8 then some b.value else none, none⟩ s)
  | c, _ => refuse c s

/-- RETIRE (R65). -/
def decideRetire (b : Block) (s : State) : OutcomeCode × List Word × State :=
  match s.findRecord b.tag with
  | .error c => refuse c s
  | .ok (i, _) => if s.frozen (zoneOf b.tag) then refuse .zoneFrozen s else done (retireSlot i s)

/-- WRITE (R62, R162). -/
def decideWrite (b : Block) (s : State) : OutcomeCode × List Word × State :=
  match s.findRecord b.tag with
  | .error c => refuse c s
  | .ok (i, r) =>
    if r.producer ≠ .host then refuse .notOwner s
    else if b.length ≠ r.length then refuse .badLength s
    else if s.frozen (zoneOf b.tag) then refuse .zoneFrozen s
    else done (applyStep i b.value none false s)

/-- The forced value of a record set or removed: visible as R9 says (R63, R64). -/
def forceStep (i : SlotIx) (v : Option (List Byte)) (s : State) : State :=
  recordStep i (fun r => { r with forcedValue := v }) s

/-- FORCE (R63, R162). -/
def decideForce (b : Block) (s : State) : OutcomeCode × List Word × State :=
  match s.findRecord b.tag with
  | .error c => refuse c s
  | .ok (i, r) =>
    if b.length ≠ r.length then refuse .badLength s
    else if s.frozen (zoneOf b.tag) then refuse .zoneFrozen s
    else done (forceStep i (some b.value) s)

/-- UNFORCE (R64). -/
def decideUnforce (b : Block) (s : State) : OutcomeCode × List Word × State :=
  match s.findRecord b.tag with
  | .error c => refuse c s
  | .ok (i, r) =>
    if r.forcedValue = none then refuse .notForced s
    else if s.frozen (zoneOf b.tag) then refuse .zoneFrozen s
    else done (forceStep i none s)

/-! ## READ and LIST -/

/-- The number of a visible quality in READ and PEEK: 0 GOOD, 1 UNSET, 2 STALE, 3 FORCED (R163, R176). -/
def Record.qualityNumber (r : Record) : BitVec 3 := r.quality.code.setWidth 3

/-- Word 2 of READ (R163); bits 2 to 0, which it does not name, read 0 (log 24). -/
def Record.readFlags (r : Record) : Word :=
  BitVec.ofNat 2 r.state.number ++ r.qualityNumber ++ BitVec.ofNat 2 r.pendingAge.number ++
    BitVec.ofBool r.processValue.isSome ++ BitVec.ofBool r.forcedValue.isSome ++
    BitVec.ofBool r.lastSequence.isSome ++ BitVec.ofNat 3 r.subscribers.length ++ 0#3

/-- Words 2 to 15 of READ (R163). -/
def Record.readWords (r : Record) (incarnation : Byte) (now : Nat) : List Word :=
  [r.readFlags, wordOf r.producer.number (BitVec.ofNat 8 r.length),
    wordOf (r.lastSequence.getD 0) incarnation, r.revision, r.age now, r.leaseRemaining now] ++
    wordsOfValue r.processValue ++ wordsOfValue r.forcedValue

/-- READ (R163). -/
def decideRead (b : Block) (s : State) : OutcomeCode × List Word × State :=
  match s.findRecord b.tag with
  | .error c => refuse c s
  | .ok (i, r) => (.ok, r.readWords (s.incarnation i) s.timeBase, s)

/-- Words 2 to 15 of LIST: the number of tags, MORE or END, the tags (section 10.7); bits 15 to 10 of word 2, which it
does not name, read 0 (log 24). -/
def listWords (es : List DirEntry) (more : Bool) : List Word :=
  (0#6 ++ BitVec.ofBool (!more) ++ BitVec.ofBool more ++ BitVec.ofNat 8 es.length) ::
    es.flatMap fun e => wordsOfTag e.tag

/-- LIST (R164): pattern, mask and start-after tag in words 1 to 6, the limit in word 7. -/
def decideList (b : Block) (s : State) : OutcomeCode × List Word × State :=
  let n := (b.word 7).toNat
  if n = 0 ∨ 6 < n then refuse .badArgument s
  else
    let w := s.walk b.tag (tagOfWords (b.word 3) (b.word 4)) (tagOfWords (b.word 5) (b.word 6)) n
    (.ok, listWords w.1 w.2, s)

/-! ## Zones and freezing -/

/-- The sum of the quotas of the ACTIVE zones (R47). -/
def State.quotaSum (s : State) : Nat :=
  (s.zones.toList.map fun x => if x.status = .active then x.quota else 0).sum

/-- A zone entry with its five settings replaced (R48). -/
def Zone.withSettings (x : Zone) (st : ZoneStatus) (ad : Admission) (quota lease grace : Nat) : Zone :=
  { x with status := st, admission := ad, quota := quota, lease := lease, grace := grace }

/-- Checks 2 to 5 of SET_ZONE, with the zone entry as it would become (R47). -/
def State.setZoneVerdict (s : State) (z : ZoneIx) (x : Zone) : OutcomeCode :=
  if x.status = .disabled ∧ 0 < x.count then .zoneInUse
  else if x.quota < x.count then .quotaTooLow
  else if 512 < (s.setZone z x).quotaSum then .quota
  else if s.frozen z then .zoneFrozen
  else .ok

/-- SET_ZONE (R47, R48, R165). -/
def decideSetZone (b : Block) (s : State) : OutcomeCode × List Word × State :=
  let quota := (b.word 3).toNat
  let lease := (b.word 4).toNat
  let grace := (b.word 5).toNat
  match zoneOfWord (b.word 1), ZoneStatus.ofByte (highByte (b.word 2)), Admission.ofByte (lowByte (b.word 2)) with
  | some z, some st, some ad =>
    if 512 < quota ∨ 6000 < lease ∨ 6000 < grace then refuse .badArgument s
    else
      let x := (s.zone z).withSettings st ad quota lease grace
      match s.setZoneVerdict z x with
      | .ok => done (s.setZone z x)
      | c => refuse c s
  | _, _, _ => refuse .badArgument s

/-- The remaining freeze time of a zone in units of 10 ms, 0 when it is not frozen (R50). -/
def Zone.freezeRemaining (x : Zone) (now : Nat) : Nat :=
  match x.freeze with
  | some d => remainingUnits d now
  | none => 0

/-- Words 2 to 7 of ZONE_STATUS (section 10.7, R50); bit 7 of word 2, which it does not name, reads 0 (log 24). -/
def Zone.statusWords (x : Zone) (z : ZoneIx) (now : Nat) : List Word :=
  [BitVec.ofNat 8 (x.freezeRemaining now) ++ 0#1 ++ BitVec.ofBool x.freeze.isSome ++
      BitVec.ofBool (decide (x.admission = .opened)) ++ BitVec.ofBool (decide (x.status = .active)) ++
      BitVec.ofNat 4 z.val,
    BitVec.ofNat 16 x.quota, BitVec.ofNat 16 x.count, BitVec.ofNat 16 x.lease, BitVec.ofNat 16 x.grace,
    x.changeCount]

/-- ZONE_STATUS (R50). -/
def decideZoneStatus (b : Block) (s : State) : OutcomeCode × List Word × State :=
  match zoneOfWord (b.word 1) with
  | none => refuse .badArgument s
  | some z => (.ok, (s.zone z).statusWords z s.timeBase, s)

/-- FREEZE (R85, R87). -/
def decideFreeze (b : Block) (s : State) : OutcomeCode × List Word × State :=
  match zoneOfWord (b.word 1) with
  | none => refuse .badArgument s
  | some z =>
    if (s.zone z).status = .disabled then refuse .noZone s
    else if s.frozen z then refuse .alreadyFrozen s
    else done (s.setZone z { s.zone z with freeze := some (s.timeBase + 10 * s.settings.freezeLimit) })

/-- THAW (R86). -/
def decideThaw (b : Block) (s : State) : OutcomeCode × List Word × State :=
  match zoneOfWord (b.word 1) with
  | none => refuse .badArgument s
  | some z => if s.frozen z then done (thawZone z s) else refuse .notFrozen s

/-! ## Device, bus and table -/

/-- The settings that the words of SET_DEVICE name, when all four are in range (R167 check 1). -/
def Block.settings (b : Block) : Option Settings :=
  match BitRate.ofCode (b.word 2) with
  | none => none
  | some rate =>
    if 1 ≤ (b.word 1).toNat ∧ (b.word 1).toNat ≤ 62 ∧ 1 ≤ (b.word 3).toNat ∧ (b.word 3).toNat ≤ 255 ∧
        1 ≤ (b.word 4).toNat ∧ (b.word 4).toNat ≤ 255 then
      some ⟨(b.word 1).setWidth 6, rate, (b.word 3).toNat, (b.word 4).toNat⟩
    else none

/-- The settings as SET_DEVICE reports them (section 10.7). -/
def Settings.words (x : Settings) : List Word :=
  [x.ownAddress.setWidth 16, x.bitRate.code, BitVec.ofNat 16 x.answerLifetime, BitVec.ofNat 16 x.freezeLimit]

/-- SET_DEVICE (R167): every outcome reports the settings in force. -/
def decideSetDevice (b : Block) (s : State) : OutcomeCode × List Word × State :=
  match b.settings with
  | none => (.badArgument, s.settings.words, s)
  | some x =>
    if s.port.state = .offline then (.ok, x.words, s.withSettings x) else (.busActive, s.settings.words, s)

/-- BUS_START (R131): reading begins anew, with no frame under way (R122), somewhere in a millisecond (log 11); a start
that is refused copies nothing (log 21). -/
def decideBusStart (_b : Block) (s : State) : OutcomeCode × List Word × State :=
  if s.port.state ≠ .offline then refuse .busActive s
  else if validAddress s.settings.ownAddress then
    done
      (s.withPort
        { s.port with
          state := .joining
          ownAddress := s.settings.ownAddress
          bitRate := s.settings.bitRate
          quietTime := 0
          underWay := none
          lineTime := Config.startPhase s.timeBase % s.settings.bitRate.bitsPerMilli })
  else refuse .badArgument s

/-- CLEAR_TABLE frees a slot: a record ceases and the incarnation goes up (R19). -/
def Slot.cleared (x : Slot) : Slot :=
  match x.record with
  | some _ => ⟨x.incarnation + 1, none⟩
  | none => x

/-- CLEAR_TABLE at a zone entry: count 0, thawed, change count up if it held a record (R38, R102). -/
def Zone.cleared (x : Zone) : Zone :=
  { x with
    count := 0
    freeze := none
    changeCount := if 0 < x.count then x.changeCount + 1 else x.changeCount }

/-- Every element of a vector changed, by way of its list. -/
def mapVector {α : Type} {n : Nat} (f : α → α) (v : Vector α n) : Vector α n := ⟨⟨v.toList.map f⟩, by simp⟩

/-- CLEAR_TABLE (R19, R20, R38, R102, R148). -/
def clearTable (s : State) : State :=
  ((((((s.withSlots (mapVector Slot.cleared s.slots)).withFreeQueue (List.finRange 512)).withDirectory []).withZones
    (mapVector Zone.cleared s.zones)).withPoolFree Config.poolCapacity).withDeferred []).withAnswers
    (s.answers.filter fun a => !(a.isNotify && !a.started))

/-- CLEAR_TABLE as a command (R19). -/
def decideClearTable (_b : Block) (s : State) : OutcomeCode × List Word × State := done (clearTable s)

/-- COUNTERS (R170). -/
def decideCounters (b : Block) (s : State) : OutcomeCode × List Word × State :=
  match (b.word 1).toNat with
  | 0 => (.ok, s.counters.report, s)
  | 1 => (.ok, s.counters.report, s.withCounters .zero)
  | _ => refuse .badArgument s

/-- SET_MAINT_MODE (R171): reports the mode it replaces. -/
def decideSetMaintMode (b : Block) (s : State) : OutcomeCode × List Word × State :=
  match MaintMode.ofWord (b.word 1) with
  | none => refuse .badArgument s
  | some m => (.ok, [s.maint.mode.code], s.withMaint { s.maint with mode := m })

/-! ## The commands -/

/-- BAD_COMMAND: a head block that can be taken and is no command completes with one entry (R155). -/
def execBadCommand (s : State) : Host.Outcome State Fault Refusal :=
  .next
    (match s.takeable with
    | none => s
    | some b => if b.command = none then completeCommand b 1 .badCommand [] s else s)

/-- CREATE. -/
def execCreate (s : State) : Host.Outcome State Fault Refusal := .next (takeCommand .create decideCreate s)

/-- RETIRE. -/
def execRetire (s : State) : Host.Outcome State Fault Refusal := .next (takeCommand .retire decideRetire s)

/-- WRITE. -/
def execWrite (s : State) : Host.Outcome State Fault Refusal := .next (takeCommand .write decideWrite s)

/-- FORCE. -/
def execForce (s : State) : Host.Outcome State Fault Refusal := .next (takeCommand .force decideForce s)

/-- UNFORCE. -/
def execUnforce (s : State) : Host.Outcome State Fault Refusal := .next (takeCommand .unforce decideUnforce s)

/-- READ. -/
def execRead (s : State) : Host.Outcome State Fault Refusal := .next (takeCommand .read decideRead s)

/-- LIST. -/
def execList (s : State) : Host.Outcome State Fault Refusal := .next (takeCommand .list decideList s)

/-- SET_ZONE. -/
def execSetZone (s : State) : Host.Outcome State Fault Refusal := .next (takeCommand .setZone decideSetZone s)

/-- ZONE_STATUS. -/
def execZoneStatus (s : State) : Host.Outcome State Fault Refusal :=
  .next (takeCommand .zoneStatus decideZoneStatus s)

/-- FREEZE. -/
def execFreeze (s : State) : Host.Outcome State Fault Refusal := .next (takeCommand .freeze decideFreeze s)

/-- THAW. -/
def execThaw (s : State) : Host.Outcome State Fault Refusal := .next (takeCommand .thaw decideThaw s)

/-- SET_DEVICE. -/
def execSetDevice (s : State) : Host.Outcome State Fault Refusal := .next (takeCommand .setDevice decideSetDevice s)

/-- BUS_START. -/
def execBusStart (s : State) : Host.Outcome State Fault Refusal := .next (takeCommand .busStart decideBusStart s)

/-- BUS_STOP while an attempt is under way: the stop is pending, a frame partly received is discarded, and the command
goes on executing, its entry reserved (R134, R168). -/
def beginStop (s : State) : State :=
  (s.withPort { s.port with stopPending := true, underWay := none }).withHost
    { s.host with executing := true, reserved := HostKind.busStop.entries }

/-- BUS_STOP without an attempt under way: OK at once (R133). -/
def decideBusStop (_b : Block) (s : State) : OutcomeCode × List Word × State :=
  if s.port.state = .offline then done s else done (goOffline s)

/-- BUS_STOP (R133, R134, R168). -/
def execBusStop (s : State) : Host.Outcome State Fault Refusal :=
  .next
    (if s.port.state = .online ∧ s.transmitter.isSome then
      match s.takeable with
      | none => s
      | some b => if b.command = some .busStop then beginStop s else s
    else takeCommand .busStop decideBusStop s)

/-- CLEAR_TABLE. -/
def execClearTable (s : State) : Host.Outcome State Fault Refusal :=
  .next (takeCommand .clearTable decideClearTable s)

/-- COUNTERS. -/
def execCounters (s : State) : Host.Outcome State Fault Refusal := .next (takeCommand .counters decideCounters s)

/-- SET_MAINT_MODE. -/
def execSetMaintMode (s : State) : Host.Outcome State Fault Refusal :=
  .next (takeCommand .setMaintMode decideSetMaintMode s)

end Sys2Proof.Machine
end

