-- ==== Sys2Proof/Machine/Maint.lean ====
section
/-! DEFINITION. The maintenance port: edges of MCLK, frame ends, the reading requests, ATTENTION, POKE, the frame timeout
and the alignment recovery (chapter 11). -/

namespace Sys2Proof.Machine

/-! ## What the reading requests answer (section 11.3) -/

/-- The field of a FREE slot that PEEK reports (R176). -/
def peekFree (field : Byte) (incarnation : Byte) : BitVec 32 := if field = 1 then incarnation.setWidth 32 else 0

/-- The node at a position of a subscriber list, 0 for an empty position (R176). -/
def nodeAt (l : List Subscription) (k : Nat) : Byte :=
  match l[k]? with
  | some x => x.node.setWidth 8
  | none => 0

/-- The field of a LIVE or STALE slot that PEEK reports (R176). -/
def Record.peekField (r : Record) (field incarnation : Byte) (now : Nat) : BitVec 32 :=
  match field.toNat with
  | 0 => 0#6 ++ BitVec.ofNat 2 r.state.number ++ r.tag
  | 1 =>
    0#6 ++ BitVec.ofNat 2 r.pendingAge.number ++ 0#1 ++ r.qualityNumber ++ BitVec.ofNat 4 r.length ++
      r.producer.number ++ incarnation
  | 2 => fourBytes r.processValue 0
  | 3 => fourBytes r.processValue 4
  | 4 => fourBytes r.forcedValue 0
  | 5 => fourBytes r.forcedValue 4
  | 6 =>
    0#5 ++ BitVec.ofBool r.forcedValue.isSome ++ BitVec.ofBool r.processValue.isSome ++
      BitVec.ofBool r.lastSequence.isSome ++ r.lastSequence.getD 0 ++ r.revision
  | 7 => r.age now ++ r.leaseRemaining now
  | 8 => nodeAt r.subscribers 0 ++ nodeAt r.subscribers 1 ++ nodeAt r.subscribers 2 ++ nodeAt r.subscribers 3
  | _ => 0

/-- PEEK (R176). -/
def State.peekAnswer (s : State) (slot : Word) (field : Byte) : OutcomeCode × BitVec 32 :=
  match slotOfWord slot with
  | none => (.badArgument, 0)
  | some i =>
    if 8 < field.toNat then (.badArgument, 0)
    else
      match s.record i with
      | none => (.noRecord, peekFree field (s.incarnation i))
      | some r => (.ok, r.peekField field (s.incarnation i) s.timeBase)

/-- PEEK_ZONE (R177); bits 31 to 28, which it does not name, read 0 (log 24). -/
def State.peekZoneAnswer (s : State) (zone : Word) : OutcomeCode × BitVec 32 :=
  match zoneOfWord zone with
  | none => (.badArgument, 0)
  | some z =>
    (.ok,
      0#4 ++ BitVec.ofBool (decide ((s.zone z).status = .active)) ++
        BitVec.ofBool (decide ((s.zone z).admission = .opened)) ++ BitVec.ofNat 10 (s.zone z).count ++
        (s.zone z).changeCount)

/-- WATCH (R175). R66 says of WATCH that it shows a forced value with quality FORCED; the layout here and R11 give it
neither, and they are followed (log 26). -/
def State.watchAnswer (s : State) (field : Byte) : OutcomeCode × BitVec 32 :=
  match field.toNat with
  | 0 => (.ok, lowByte s.lastTouched.revision ++ s.lastTouched.tag)
  | 1 => (.ok, lowByte s.lastTouched.revision ++ 0#8 ++ BitVec.ofNat 16 s.lastTouched.slot.val)
  | _ => (.badArgument, 0)

/-! ## POKE (section 11.5) -/

/-- The byte offset of a value field: bytes 0 to 3 for field 2, 4 to 7 for field 3 (R180). -/
def fieldBase (field : Byte) : Nat := if field = 3 then 4 else 0

/-- Data byte `k` of a POKE, byte 0 in bits 31 to 24 (section 11.2). -/
def dataByte (d : BitVec 32) (k : Nat) : Byte := d.extractLsb' (24 - 8 * k) 8

/-- The process value with the poked bytes replaced; an absent one starts as zeros (R59, R180). -/
def Record.patched (r : Record) (base : Nat) (d : BitVec 32) : List Byte :=
  (List.range r.length).map fun k =>
    if base ≤ k ∧ k < base + 4 then dataByte d (k - base) else byteAt r.processValue k

/-- The checks of a POKE in the order of R180; the slot is the one it is applied to. -/
def State.pokeVerdict (s : State) (slot : Word) (field incarnation : Byte) : Except OutcomeCode (SlotIx × Record) :=
  match slotOfWord slot with
  | none => .error .badArgument
  | some i =>
    if field ≠ 2 ∧ field ≠ 3 then .error .badArgument
    else if s.maint.mode ≠ .service then .error .notPermitted
    else
      match s.record i with
      | none => .error .noRecord
      | some r =>
        if s.incarnation i ≠ incarnation then .error .staleRef
        else if s.frozen (zoneOf r.tag) then .error .zoneFrozen
        else if field = 3 ∧ r.length ≤ 4 then .error .badArgument
        else .ok (i, r)

/-- The read-back of a POKE that was applied (R181). -/
def State.readBackAnswer (s : State) (slot : Word) (field incarnation : Byte) : OutcomeCode × BitVec 32 :=
  match slotOfWord slot with
  | none => (.noRecord, 0)
  | some i =>
    match s.record i with
    | none => (.noRecord, 0)
    | some r =>
      if s.incarnation i = incarnation then (.ok, fourBytes r.processValue (fieldBase field)) else (.staleRef, 0)

/-- The request code of POKE, which every frame of a POKE echoes. -/
def pokeCode : Byte := 0x05

/-! ## Frame ends -/

/-- The output of the next frame and the POKE progress after a frame end (R173). -/
def setOutput (out : MaintFrame) (p : PokeProgress) (s : State) : State :=
  s.withMaint { s.maint with output := out, poke := p }

/-- A request taken and answered within its own frame end (R174). -/
def answerRequest (code : Byte) (a : OutcomeCode × BitVec 32) (s : State) : State :=
  setOutput (response a.1 code a.2) .idle s

/-- ATTENTION: the code is stored in an empty mailbox, else it is lost (R178). -/
def doAttention (w : Word) (s : State) : State :=
  match s.maint.mailbox with
  | none => answerRequest 0x04 (.ok, 0) (raiseAttention (s.withMaint { s.maint with mailbox := some w }))
  | some _ => answerRequest 0x04 (.busy, 0) s

/-- The end of a request frame (R174 to R179). -/
def endRequest (f : MaintFrame) (s : State) : State :=
  match (requestCode f).toNat with
  | 0x00 => answerRequest 0x00 (.ok, 0) s
  | 0x01 => answerRequest 0x01 (s.peekAnswer (requestSlot f) (requestField f)) s
  | 0x02 => answerRequest 0x02 (s.peekZoneAnswer (requestSlot f)) s
  | 0x03 => answerRequest 0x03 (s.watchAnswer (requestField f)) s
  | 0x04 => doAttention (requestSlot f) s
  | 0x05 =>
    setOutput (response .ok pokeCode (requestIncarnation f ++ requestField f ++ requestSlot f))
      (.awaitData (requestSlot f) (requestField f) (requestIncarnation f)) s
  | 0xFF => setOutput idleFrame .idle s
  | _ => answerRequest (requestCode f) (.badArgument, 0) s

/-- The end of the data frame of a POKE: the decision, the before-value and the patch in one step (R180, R181). -/
def endPokeData (f : MaintFrame) (slot : Word) (field incarnation : Byte) (s : State) : State :=
  match s.pokeVerdict slot field incarnation with
  | .error c => setOutput (response c pokeCode 0) (.decided slot field incarnation (some c)) s
  | .ok (i, r) =>
    applyStep i (r.patched (fieldBase field) (frameData f)) none false
      (setOutput (response .ok pokeCode (fourBytes r.processValue (fieldBase field)))
        (.decided slot field incarnation none) s)

/-- The end of frame k+2 of a POKE (R181). -/
def endPokeReadBack (slot : Word) (field incarnation : Byte) (refusal : Option OutcomeCode) (s : State) : State :=
  match refusal with
  | some c => setOutput (response c pokeCode 0) .readBack s
  | none =>
    setOutput
      (response (s.readBackAnswer slot field incarnation).1 pokeCode (s.readBackAnswer slot field incarnation).2)
      .readBack s

/-- A frame end: what the port makes of the frame depends on where a POKE stands (R173, R174, R179 to R181). -/
def endFrame (f : MaintFrame) (s : State) : State :=
  match s.maint.poke with
  | .idle => endRequest f s
  | .awaitData slot field inc => endPokeData f slot field inc s
  | .decided slot field inc refusal => endPokeReadBack slot field inc refusal s
  | .readBack => setOutput idleFrame .idle s

/-! ## Edges -/

/-- The frame under way discarded, the alignment reset, and a POKE in progress dropped (R183, R184). -/
def realign (s : State) : State :=
  s.withMaint { s.maint with position := 0, shift := 0, onesCount := 0, output := idleFrame, poke := .idle }

/-- Whether MCLK has stood still inside a frame for two counts of the time base (R183). -/
def State.timedOut (s : State) : Bool :=
  decide (0 < s.maint.position) && decide (s.maint.lastEdge + 2 ≤ s.timeBase)

/-- A falling edge of MCLK: MDO takes the next bit of the output frame, bit 47 at position 0 (R172). -/
def fallingEdge (s : State) : State :=
  s.withMaint { s.maint with mdo := s.maint.output.getMsbD s.maint.position, mclk := false }

/-- A rising edge before its bit is taken: a frame timeout that is due comes first, MCLK falls if it is still high, and
the time of the edge is held (R172, R183; log 17). -/
def seeEdge (s : State) : State :=
  let u := if s.timedOut then realign s else s
  let v := if u.maint.mclk then fallingEdge u else u
  v.withMaint { v.maint with lastEdge := s.timeBase, mclk := true }

/-- The ones count after a bit (R184). -/
def onesAfter (n : Nat) (b : Bool) : Nat := if b then n + 1 else 0

/-- The bits sampled, with one more at the low end: bit 47 comes first (section 11.2). -/
def shiftIn (x : MaintFrame) (b : Bool) : MaintFrame := x <<< 1 ||| BitVec.setWidth 48 (BitVec.ofBool b)

/-- A bit sampled on MDI: an alignment recovery at the 64th consecutive 1, a frame end at the 48th bit, else one bit
more of the frame under way (R172, R184). -/
def sampleBit (b : Bool) (s : State) : State :=
  let ones := onesAfter s.maint.onesCount b
  if Config.alignmentOnes ≤ ones then realign s
  else if s.maint.position < 47 then
    s.withMaint
      { s.maint with position := s.maint.position + 1, shift := shiftIn s.maint.shift b, onesCount := ones }
  else
    endFrame (shiftIn s.maint.shift b) (s.withMaint { s.maint with position := 0, shift := 0, onesCount := ones })

/-- A rising edge of MCLK with a level on MDI, and the fall behind it if MCLK falls at once (R172). -/
def clockEdge (e : MclkEdge) (s : State) : State :=
  let u := sampleBit e.mdi (seeEdge s)
  if e.falls then fallingEdge u else u

/-- The bits of a frame, bit 47 first (section 11.2). -/
def frameBits (f : MaintFrame) : List Bool := (List.range 48).map fun i => f.getMsbD i

/-- The 48 rising edges with which the tool sends a frame, each with its fall (R172; log 13). -/
def clockFrame (f : MaintFrame) (s : State) : State := (frameBits f).foldl (fun u b => clockEdge ⟨b, true⟩ u) s

/-- Whether the ones count reaches 64 while these bits are sampled (R184). -/
def reachesRecovery (ones : Nat) : List Bool → Bool
  | [] => false
  | b :: bs => decide (Config.alignmentOnes ≤ onesAfter ones b) || reachesRecovery (onesAfter ones b) bs

/-- MRDY is low while a POKE holds the port (R179, R181). -/
def State.mrdyHigh (s : State) : Bool := decide (s.maint.poke = .idle)

/-! ## The commands -/

/-- NO_REQUEST (R174). -/
def execNoRequest (rest : BitVec 40) (s : State) : Host.Outcome State Fault Refusal :=
  .next (clockFrame (0xFF#8 ++ rest) s)

/-- UNKNOWN_REQUEST_CODE (R174). -/
def execUnknownRequestCode (code : Byte) (rest : BitVec 40) (s : State) : Host.Outcome State Fault Refusal :=
  .next (clockFrame (code ++ rest) s)

/-- NOP (R174). -/
def execNop (rest : BitVec 40) (s : State) : Host.Outcome State Fault Refusal := .next (clockFrame (0x00#8 ++ rest) s)

/-- PEEK (R176). -/
def execPeek (slot : Word) (field incarnation spare : Byte) (s : State) : Host.Outcome State Fault Refusal :=
  .next (clockFrame (0x01#8 ++ slot ++ field ++ incarnation ++ spare) s)

/-- PEEK_ZONE (R177). -/
def execPeekZone (zone : Word) (rest : BitVec 24) (s : State) : Host.Outcome State Fault Refusal :=
  .next (clockFrame (0x02#8 ++ zone ++ rest) s)

/-- WATCH (R175). -/
def execWatch (slotBits : Word) (field : Byte) (rest : Word) (s : State) : Host.Outcome State Fault Refusal :=
  .next (clockFrame (0x03#8 ++ slotBits ++ field ++ rest) s)

/-- ATTENTION (R178). -/
def execAttention (code : Word) (rest : BitVec 24) (s : State) : Host.Outcome State Fault Refusal :=
  .next (clockFrame (0x04#8 ++ code ++ rest) s)

/-- POKE (R179). -/
def execPoke (slot : Word) (field incarnation spare : Byte) (s : State) : Host.Outcome State Fault Refusal :=
  .next (clockFrame (pokeCode ++ slot ++ field ++ incarnation ++ spare) s)

/-- POKE_DATA_FRAME (R180): frame k+1, whatever its bits hold. -/
def execPokeDataFrame (frame : MaintFrame) (s : State) : Host.Outcome State Fault Refusal :=
  .next (clockFrame frame s)

/-- POKE_READ_BACK (R181): frame k+2, whatever its bits hold. -/
def execPokeReadBack (frame : MaintFrame) (s : State) : Host.Outcome State Fault Refusal :=
  .next (clockFrame frame s)

/-- POKE_END (R181): frame k+3, whatever its bits hold. -/
def execPokeEnd (frame : MaintFrame) (s : State) : Host.Outcome State Fault Refusal := .next (clockFrame frame s)

/-- FRAME_TIMEOUT (R183); otherwise no timeout is taken (log 4). -/
def execFrameTimeout (s : State) : Host.Outcome State Fault Refusal := .next (if s.timedOut then realign s else s)

/-- ALIGNMENT_RECOVERY (R184): a rising edge with a 1 on MDI, which recovers at the 64th in a row. -/
def execAlignmentRecovery (s : State) : Host.Outcome State Fault Refusal := .next (clockEdge ⟨true, true⟩ s)

/-- MCLK_RISING_EDGE (R172). An edge that completes a frame ends it. -/
def execMclkRisingEdge (edge : MclkEdge) (s : State) : Host.Outcome State Fault Refusal := .next (clockEdge edge s)

end Sys2Proof.Machine
end

