-- ==== Sys2Proof/Machine/Power.lean ====
section
/-! DEFINITION. Power-on and RESET# (R22 and the power-on rule of each chapter). -/

namespace Sys2Proof.Machine

/-- RESET (R22, R24, R38, R84, R102, R103, R130, R137, R152 to R160, R166, R169, R185): every block at its power-on
values, the straps read again. The queue of waiting commands and the model's own counter are not the part's (log 1,
log 3). -/
def execReset (addr : Addr) (rate : BitVec 2) (s : State) : Host.Outcome State Fault Refusal :=
  .next (((State.powerOn ⟨addr, rate⟩).withPending s.pending).withChoices s.choices)

end Sys2Proof.Machine
end

