-- ==== Sys2Proof/Machine/Dispatch.lean ====
section
/-! DEFINITION. The meaning of every command, one arm for each row of the table. -/

namespace Sys2Proof.Machine

/-- What a command does to everything but the queue of waiting commands. -/
def exec (i : Instr) (s : State) : Host.Outcome State Fault Refusal :=
  match i with
  | .reset addr rate => Sys2Proof.Machine.execReset addr rate s
  | .leaseExpiry slot => Sys2Proof.Machine.execLeaseExpiry slot s
  | .graceExpiry slot => Sys2Proof.Machine.execGraceExpiry slot s
  | .freezeLimitExpiry zone => Sys2Proof.Machine.execFreezeLimitExpiry zone s
  | .frameDropped readings => Sys2Proof.Machine.execFrameDropped readings s
  | .publish dst src tag seq flags value => Sys2Proof.Machine.execPublish dst src tag seq flags value s
  | .withdraw dst src tag seq => Sys2Proof.Machine.execWithdraw dst src tag seq s
  | .subscribe dst src tag seq => Sys2Proof.Machine.execSubscribe dst src tag seq s
  | .unsubscribe dst src tag seq => Sys2Proof.Machine.execUnsubscribe dst src tag seq s
  | .query dst src pattern payload => Sys2Proof.Machine.execQuery dst src pattern payload s
  | .busOnline quiet => Sys2Proof.Machine.execBusOnline quiet s
  | .attemptStart quiet => Sys2Proof.Machine.execAttemptStart quiet s
  | .attemptSent => Sys2Proof.Machine.execAttemptSent s
  | .attemptLost bit => Sys2Proof.Machine.execAttemptLost bit s
  | .attemptFault bit reading => Sys2Proof.Machine.execAttemptFault bit reading s
  | .cmdData w => Sys2Proof.Machine.execCmdData w s
  | .cmdSubmit w => Sys2Proof.Machine.execCmdSubmit w s
  | .cplData => Sys2Proof.Machine.execCplData s
  | .cplPop w => Sys2Proof.Machine.execCplPop w s
  | .intStatus w => Sys2Proof.Machine.execIntStatus w s
  | .intEnable w => Sys2Proof.Machine.execIntEnable w s
  | .maintMailbox => Sys2Proof.Machine.execMaintMailbox s
  | .ignoredWrite register w => Sys2Proof.Machine.execIgnoredWrite register w s
  | .badCommand => Sys2Proof.Machine.execBadCommand s
  | .create => Sys2Proof.Machine.execCreate s
  | .retire => Sys2Proof.Machine.execRetire s
  | .write => Sys2Proof.Machine.execWrite s
  | .force => Sys2Proof.Machine.execForce s
  | .unforce => Sys2Proof.Machine.execUnforce s
  | .read => Sys2Proof.Machine.execRead s
  | .list => Sys2Proof.Machine.execList s
  | .setZone => Sys2Proof.Machine.execSetZone s
  | .zoneStatus => Sys2Proof.Machine.execZoneStatus s
  | .freeze => Sys2Proof.Machine.execFreeze s
  | .thaw => Sys2Proof.Machine.execThaw s
  | .setDevice => Sys2Proof.Machine.execSetDevice s
  | .busStart => Sys2Proof.Machine.execBusStart s
  | .busStop => Sys2Proof.Machine.execBusStop s
  | .clearTable => Sys2Proof.Machine.execClearTable s
  | .counters => Sys2Proof.Machine.execCounters s
  | .setMaintMode => Sys2Proof.Machine.execSetMaintMode s
  | .noRequest rest => Sys2Proof.Machine.execNoRequest rest s
  | .unknownRequestCode code rest => Sys2Proof.Machine.execUnknownRequestCode code rest s
  | .nop rest => Sys2Proof.Machine.execNop rest s
  | .peek slot field incarnation spare => Sys2Proof.Machine.execPeek slot field incarnation spare s
  | .peekZone zone rest => Sys2Proof.Machine.execPeekZone zone rest s
  | .watch slotBits field rest => Sys2Proof.Machine.execWatch slotBits field rest s
  | .attention code rest => Sys2Proof.Machine.execAttention code rest s
  | .poke slot field incarnation spare => Sys2Proof.Machine.execPoke slot field incarnation spare s
  | .pokeDataFrame frame => Sys2Proof.Machine.execPokeDataFrame frame s
  | .pokeReadBack frame => Sys2Proof.Machine.execPokeReadBack frame s
  | .pokeEnd frame => Sys2Proof.Machine.execPokeEnd frame s
  | .frameTimeout => Sys2Proof.Machine.execFrameTimeout s
  | .alignmentRecovery => Sys2Proof.Machine.execAlignmentRecovery s
  | .mclkRisingEdge edge => Sys2Proof.Machine.execMclkRisingEdge edge s

end Sys2Proof.Machine
end

