-- ==== Sys2Proof/Machine/Schedule.lean ====
section
/-! DEFINITION. What the part does of its own accord when no command waits: its due events, and else a millisecond
(log 2). -/

namespace Sys2Proof.Machine

/-- The row of a kind of host command. -/
def HostKind.row : HostKind → Instr
  | .create => .create
  | .retire => .retire
  | .write => .write
  | .force => .force
  | .unforce => .unforce
  | .read => .read
  | .list => .list
  | .setZone => .setZone
  | .zoneStatus => .zoneStatus
  | .freeze => .freeze
  | .thaw => .thaw
  | .setDevice => .setDevice
  | .busStart => .busStart
  | .busStop => .busStop
  | .clearTable => .clearTable
  | .counters => .counters
  | .setMaintMode => .setMaintMode

/-- The taking of the head block, if it can be taken (R154, R155). -/
def State.hostEvents (s : State) : List Instr :=
  match s.takeable with
  | none => []
  | some b =>
    match b.command with
    | none => [.badCommand]
    | some k => [k.row]

/-- The expiries whose deadline the time base has reached (R74, R78, R99). -/
def State.ageEvents (s : State) : List Instr :=
  ((s.slotsWhere fun r => reached r.leaseDeadline s.timeBase).map Instr.leaseExpiry) ++
    ((s.slotsWhere fun r => decide (r.state = .stale) && reached r.graceDeadline s.timeBase).map
      Instr.graceExpiry) ++
    (((List.finRange 16).filter fun z => reached (s.zone z).freeze s.timeBase).map Instr.freezeLimitExpiry)

/-- The frame timeout, if it is due (R183). -/
def State.portEvents (s : State) : List Instr := if s.timedOut then [.frameTimeout] else []

/-- The attempt start, if an entry waits and an attempt can start (R140). -/
def State.transmitEvents (s : State) : List Instr :=
  if s.mayAttempt && !s.answers.isEmpty then [.attemptStart 0] else []

/-- The part's own events that are due. The ends of an attempt come from the line (log 12). -/
def State.ownEvents (s : State) : List Instr := s.hostEvents ++ s.ageEvents ++ s.portEvents ++ s.transmitEvents

/-- The bit times of the present millisecond for which a port that listens has not read the line yet (log 11). -/
def State.unreadBits (s : State) : Nat := if s.listens then s.port.bitRate.bitsPerMilli - s.port.lineTime else 0

/-- Insertion of a ranked event behind those of smaller rank. -/
def insertRanked (x : Nat × Instr) : List (Nat × Instr) → List (Nat × Instr)
  | [] => [x]
  | y :: ys => if x.1 ≤ y.1 then x :: y :: ys else y :: insertRanked x ys

/-- Events that are due together, in the order that the free value of occasion `k` gives (R82, R99; log 3). -/
def orderEvents (k : Nat) (l : List Instr) : List Instr :=
  ((l.zipIdx.map fun x => (Config.ownEventRank k x.2, x.1)).foldr insertRanked []).map (·.2)

/-- The time base after one millisecond more (R70; log 5). -/
def nextTime (t : Nat) : Nat :=
  if t + 1 < Config.timeBaseRange then t + 1 else Config.timeBaseAfterLast.toNat

/-- A millisecond passes: the time base goes up, and the bit times of the millisecond are past (R70; log 11). -/
def passMilli (s : State) : State :=
  (s.withTimeBase (nextTime s.timeBase)).withPort
    { s.port with lineTime := s.port.lineTime - s.port.bitRate.bitsPerMilli }

/-- What happens when no command waits: the part's due events are put in the queue; when none is due, the line stays
quiet for the rest of the millisecond, and then the millisecond passes (logs 2, 11). -/
def State.ownTurn (s : State) : State :=
  match s.ownEvents with
  | [] => if s.unreadBits = 0 then passMilli s else s.withPending [.busOnline s.unreadBits]
  | es => (s.withPending (orderEvents s.choices es)).withChoices (s.choices + 1)

end Sys2Proof.Machine
end

