-- ==== Sys2Proof/Safety.lean ====
section
/-! DEFINITION. What a sound PX512 is: the invariants the manual states, and the frames in which its changes are
described. -/

namespace Sys2Proof.Machine

/-! ## Invariants -/

/-- The records of a zone (R41). -/
def State.recordsIn (s : State) (z : ZoneIx) : Nat :=
  s.slots.toList.countP fun x =>
    match x.record with
    | some r => decide (zoneOf r.tag = z)
    | none => false

/-- The subscription entries in use (R103). -/
def State.usedEntries (s : State) : Nat :=
  (s.slots.toList.map fun x =>
    match x.record with
    | some r => r.subscribers.length
    | none => 0).sum

/-- Record store, directory and zone table agree (R13, R23, R37, R39, R41). -/
structure TableSound (s : State) : Prop where
  ascending : s.directory.Pairwise fun a b => a.tag < b.tag
  entries : ∀ t i, (⟨t, i⟩ : DirEntry) ∈ s.directory ↔ ∃ r, s.record i = some r ∧ r.tag = t
  tagged : ∀ i r, s.record i = some r → r.tag ≠ 0
  freeOnce : s.freeQueue.Nodup
  free : ∀ i, i ∈ s.freeQueue ↔ s.record i = none
  counted : ∀ z, (s.zone z).count = s.recordsIn z
  withinQuota : ∀ z, (s.zone z).count ≤ (s.zone z).quota
  ranges : ∀ z, (s.zone z).quota ≤ 512 ∧ (s.zone z).lease ≤ 6000 ∧ (s.zone z).grace ≤ 6000
  quotas : s.quotaSum ≤ 512
  disabled : ∀ z, (s.zone z).status = .disabled → (s.zone z).count = 0 ∧ (s.zone z).freeze = none

/-- The subscription pool and the subscriber lists agree (R103, R104). -/
structure SubscriptionsSound (s : State) : Prop where
  pool : s.poolFree + s.usedEntries = 256
  lists : ∀ i r, s.record i = some r → r.subscribers.length ≤ 4 ∧ (r.subscribers.map (·.node)).Nodup
  nodes : ∀ i r, s.record i = some r → ∀ x ∈ r.subscribers, validAddress x.node = true

/-- The deferred update queue (R89): bounded, one entry per slot, each for a record of a frozen zone. -/
structure DeferredSound (s : State) : Prop where
  bounded : s.deferred.length ≤ 32
  oncePerSlot : s.deferred.Pairwise fun a b => a.slot ≠ b.slot
  held : ∀ e ∈ s.deferred, ∃ r n, s.record e.slot = some r ∧ s.incarnation e.slot = e.incarnation ∧
    s.frozen (zoneOf r.tag) = true ∧ e.value.length = r.length ∧ r.producer = .node n

/-- One record of a zone (R2, R3, R71, R79, R80); `frozen` is the zone's freeze field. -/
structure RecordSound (frozen : Bool) (r : Record) : Prop where
  length : 1 ≤ r.length ∧ r.length ≤ 8
  process : ∀ v, r.processValue = some v → v.length = r.length
  forced : ∀ v, r.forcedValue = some v → v.length = r.length
  node : ∀ a, r.producer = .node a → validAddress a = true
  host : r.producer = .host → r.state = .live ∧ r.leaseDeadline = none ∧ r.lastSequence = none ∧
    r.pendingAge = .noStep
  grace : r.state = .live → r.graceDeadline = none
  pendingFrozen : r.pendingAge ≠ .noStep → frozen = true
  expire : r.pendingAge = .expire → r.state = .live ∧ r.leaseDeadline = none
  retire : r.pendingAge = .retire → r.state = .stale ∧ r.graceDeadline = none

/-- Every record is sound. -/
def RecordsSound (s : State) : Prop := ∀ i r, s.record i = some r → RecordSound (s.frozen (zoneOf r.tag)) r

/-- The answer queue and the transmitter (R130, R137, R139, R140). -/
structure AnswersSound (s : State) : Prop where
  bounded : s.answers.length ≤ 24
  notifies : notifyCount s.answers ≤ 16
  onePerTriple : ∀ ref n, s.answers.countP (Answer.isWaitingNotify ref n) ≤ 1
  started : s.answers.countP (·.started) = if s.transmitter.isSome then 1 else 0
  faults : ∀ a ∈ s.answers, a.faultCount < 3
  offline : s.port.state = .offline → s.answers = []
  online : s.transmitter.isSome = true → s.port.state = .online

/-- The host command unit (R152, R154, R156, R168). -/
structure HostSound (s : State) : Prop where
  pointer : s.host.stagingPointer ≤ 8
  commands : s.host.commands.length ≤ 4
  completions : s.host.completions.length + s.host.reserved ≤ 8
  emptyPointer : s.host.completions = [] → s.host.readPointer = 0
  reserved : s.host.reserved = if s.host.executing then 1 else 0
  stopping : s.host.executing = s.port.stopPending
  underway : s.port.stopPending = true → s.transmitter.isSome = true ∧ s.port.state = .online ∧
    ∃ b, s.host.commands.head? = some b ∧ b.command = some .busStop

/-- Device settings, port and time base (R70, R117, R121, R130 to R132, R140, R166). -/
structure DeviceSound (s : State) : Prop where
  lifetime : 1 ≤ s.settings.answerLifetime ∧ s.settings.answerLifetime ≤ 255
  limit : 1 ≤ s.settings.freezeLimit ∧ s.settings.freezeLimit ≤ 255
  address : s.port.state ≠ .offline → validAddress s.port.ownAddress = true
  joining : s.port.state = .joining → s.port.quietTime < s.port.bitRate.joinBits
  offline : s.port.state = .offline → s.port.quietTime = 0 ∧ s.port.underWay = none
  underWay : ∀ l, s.port.underWay = some l → l ≠ [] ∧ s.port.quietTime = 0
  attempt : s.transmitter.isSome = true → s.port.state = .online ∧ s.port.underWay = none ∧ 11 ≤ s.port.quietTime
  clock : s.timeBase < 2 ^ 48

/-- The maintenance port (R172, R184). -/
structure MaintSound (s : State) : Prop where
  position : s.maint.position ≤ 47
  ones : s.maint.onesCount ≤ 63
  between : s.maint.position = 0 → s.maint.shift = 0

/-! ## Changes and their frames -/

/-- The tag names the record in slot `i`: the checks BAD_TAG, NO_ZONE and NO_RECORD pass (R25, R39). -/
structure State.Finds (s : State) (t : Tag) (i : SlotIx) (r : Record) : Prop where
  named : t ≠ 0
  active : (s.zone (zoneOf t)).status = .active
  found : s.lookup t = some i
  held : s.record i = some r

/-- A NOTIFY as it joins the queue (R109, R137). -/
def freshNotify (ref : Ref) (t : Tag) (now : Nat) (n : Addr) : Answer := ⟨.notify ref false, n, t, now, 0, false⟩

/-- Nothing can be admitted for a notification request (R109). -/
def State.noRoom (s : State) : Prop :=
  16 ≤ notifyCount s.answers ∨ 24 ≤ s.answers.length ∨ s.port.state = .offline

/-- Whether an unstarted NOTIFY for the record `ref` waits for node `n` (R109). -/
def State.waits (s : State) (ref : Ref) (n : Addr) : Bool := s.answers.any (Answer.isWaitingNotify ref n)

/-- What the notification requests for the record `ref` of tag `t` to `nodes` leave in the answer queue and the counters,
from `s` to `u` (R109, R110): new NOTIFY entries at the tail, in the order of the nodes, one for a node and none for
a node whose NOTIFY waited before, which coalesces; no node without a waiting NOTIFY
while there is room; and one NOTIFY_MISSED for each node without one. -/
structure Requested (ref : Ref) (t : Tag) (nodes : List Addr) (s u : State) : Prop where
  joined : ∃ l : List Addr, l.Sublist nodes ∧ l.Nodup ∧ (∀ n ∈ l, s.waits ref n = false) ∧
    u.answers = s.answers ++ l.map (freshNotify ref t s.timeBase)
  room : ∀ n ∈ nodes, u.waits ref n = true ∨ u.noRoom
  counted : u.counters = { s.counters with
    notifyMissed := saturatingSucc^[(nodes.filter fun n => !u.waits ref n).length] s.counters.notifyMissed }

/-- From `s` to `u` the record in slot `i` becomes `r` by a visible change (R10): `r` is the record before its revision
moves. The subscriptions whose request was refused have their missed markers set (R110). -/
structure VisiblyChanged (i : SlotIx) (r : Record) (s u : State) : Prop where
  record : u.slots = (s.setRecord i { r with
    revision := r.revision + 1
    subscribers := r.subscribers.map fun x =>
      { x with missed := x.missed || !u.waits ⟨i, s.incarnation i⟩ x.node } }).slots
  zone : u.zones = (s.setZone (zoneOf r.tag)
    { s.zone (zoneOf r.tag) with changeCount := (s.zone (zoneOf r.tag)).changeCount + 1 }).zones
  touched : u.lastTouched = ⟨i, r.tag, r.revision + 1⟩
  requested : Requested ⟨i, s.incarnation i⟩ r.tag (r.subscribers.map (·.node)) s u
  rest : u = { s with
    slots := u.slots, zones := u.zones, lastTouched := u.lastTouched, answers := u.answers, counters := u.counters }

/-- From `s` to `u` the record `r` in slot `i` becomes `r'`: visibly when its image differs, and else with nothing but
the record changed (R9, R10, R12). -/
def Becomes (i : SlotIx) (r r' : Record) (s u : State) : Prop :=
  if r'.image = r.image then u = s.setRecord i r' else VisiblyChanged i r' s u

/-- From `s` to `u` the record `r` in slot `i` is retired (R17). -/
structure Retired (i : SlotIx) (r : Record) (s u : State) : Prop where
  freed : u.slots = (s.setSlot i ⟨s.incarnation i + 1, none⟩).slots
  directory : u.directory = s.directory.filter fun e => e ≠ ⟨r.tag, i⟩
  queue : u.freeQueue = s.freeQueue ++ [i]
  zone : u.zones = (s.setZone (zoneOf r.tag)
    { s.zone (zoneOf r.tag) with
      count := (s.zone (zoneOf r.tag)).count - 1
      changeCount := (s.zone (zoneOf r.tag)).changeCount + 1 }).zones
  touched : u.lastTouched = ⟨i, r.tag, r.revision + 1⟩
  pool : u.poolFree = s.poolFree + r.subscribers.length
  requested : Requested ⟨i, s.incarnation i⟩ r.tag (r.subscribers.map (·.node)) s u
  rest : u = { s with
    slots := u.slots, directory := u.directory, freeQueue := u.freeQueue, zones := u.zones,
    lastTouched := u.lastTouched, poolFree := u.poolFree, answers := u.answers, counters := u.counters }

/-- From `s` to `u` a record is created in slot `i`, the head of the free-slot queue (R15). -/
structure Created (i : SlotIx) (r : Record) (s u : State) : Prop where
  taken : s.freeQueue = i :: u.freeQueue
  record : u.slots = (s.setRecord i r).slots
  directory : ∃ below above, s.directory = below ++ above ∧ u.directory = below ++ ⟨r.tag, i⟩ :: above ∧
    (∀ e ∈ below, ¬ r.tag < e.tag) ∧ ∀ e ∈ above.head?, r.tag < e.tag
  zone : u.zones = (s.setZone (zoneOf r.tag)
    { s.zone (zoneOf r.tag) with
      count := (s.zone (zoneOf r.tag)).count + 1
      changeCount := (s.zone (zoneOf r.tag)).changeCount + 1 }).zones
  touched : u.lastTouched = ⟨i, r.tag, 0⟩
  rest : u = { s with
    slots := u.slots, directory := u.directory, freeQueue := u.freeQueue, zones := u.zones,
    lastTouched := u.lastTouched }

/-- The lease deadline of a node's record after a renewal now under a zone's setting (R72). -/
def leaseAfter (s : State) (r : Record) : Option Nat :=
  if (s.zone (zoneOf r.tag)).lease = 0 then r.leaseDeadline
  else some (s.timeBase + 10 * (s.zone (zoneOf r.tag)).lease)

/-- The pending age step after a renewal (R72). -/
def pendingAfter (r : Record) : AgeStep := if r.pendingAge = .expire then .noStep else r.pendingAge

/-- Changes one after the other, each as `P` says of its item. -/
def InTurn {α : Type} (P : α → State → State → Prop) : List α → State → State → Prop
  | [], s, u => u = s
  | a :: l, s, u => ∃ t, P a s t ∧ InTurn P l t u

/-- From `s` to `u` a parked entry of a thawing zone is applied to its record, with a renewal from the thaw time (R58,
R59, R96). -/
def Unparked (e : Deferred) (s u : State) : Prop :=
  ∃ r, s.record e.slot = some r ∧
    Becomes e.slot r
      { r with
        state := .live
        processValue := some e.value
        lastSequence := some e.sequence
        lastUpdate := s.timeBase
        leaseDeadline := leaseAfter s r
        graceDeadline := if r.state = .stale then none else r.graceDeadline
        pendingAge := pendingAfter r } s u

/-- From `s` to `u` the record in slot `i` of a thawing zone takes its pending age step, or drops a step that no longer
fits its state (R80, R97). -/
def SettledPending (i : SlotIx) (s u : State) : Prop :=
  ∃ r, s.record i = some r ∧
    if r.pendingAge = .expire ∧ r.state = .live then
      Becomes i { r with pendingAge := .noStep }
        { r with
          pendingAge := .noStep
          state := .stale
          graceDeadline :=
            if (s.zone (zoneOf r.tag)).grace = 0 then none
            else some (s.timeBase + 10 * (s.zone (zoneOf r.tag)).grace) }
        (s.setRecord i { r with pendingAge := .noStep }) u
    else if r.pendingAge = .retire ∧ r.state = .stale then Retired i r s u
    else u = s.setRecord i { r with pendingAge := .noStep }

/-- At most one frame ends for the port when the command is taken: the line carries one frame at a time, but one row
may hold several (R123; log 8). -/
def State.AtMostOneFrame (s : State) (c : Instr) : Prop :=
  match c with
  | .frameDropped readings =>
    if s.listens then (endedFrames s.port.quietTime s.port.underWay readings).length ≤ 1
    else s.reads = true → (endedFrames 11 none readings).length ≤ 1
  | .publish _ _ _ _ _ _ | .withdraw _ _ _ _ | .subscribe _ _ _ _ | .unsubscribe _ _ _ _ | .query _ _ _ _ =>
    s.listens = true → s.port.underWay = none
  | _ => True

/-- The port takes a request frame addressed to it from a node, which no other frame precedes unended; 63 is never an
own address (R117, R121, R122, R124). In an attempt the frame ended before it (R123; log 8). -/
structure State.Hears (s : State) (dst src : Addr) : Prop where
  reading : s.port.state ≠ .offline ∧ s.port.stopPending = false ∧ (s.transmitter = none → s.port.underWay = none)
  source : src ≠ 0 ∧ src ≠ 63 ∧ src ≠ s.port.ownAddress
  addressed : dst = s.port.ownAddress ∧ dst ≠ 63

/-- The state once the line has been idle for 11 bit times more, a frame of `n` bits has passed, and the quiet bit time
behind it has been read: the quiet before the frame may bring a JOINING port ONLINE (R117, R132). In an attempt the line
that the port reads is its own, and the frame is one that passed before (log 8). -/
def State.readPast (n : Nat) (s : State) : State :=
  { s with
    port :=
      if s.transmitter = none then
        { s.port with
          state :=
            if s.port.state = .joining ∧ s.port.bitRate.joinBits ≤ s.port.quietTime + 11 then .online
            else s.port.state
          quietTime := 1
          underWay := none
          lineTime := s.port.lineTime + 11 + n + 1 }
      else s.port }

/-- The state in which a taken frame of `n` payload bytes is decided: it has passed, and RX_GOOD is counted (R118,
R124). -/
def State.heard (n : Nat) (s : State) : State :=
  { s.readPast (84 + 8 * n) with counters := { s.counters with rxGood := saturatingSucc s.counters.rxGood } }

/-- The maintenance port after a whole frame `f` that it took from its first bit, with the next output, whose first bit
stands on MDO, and POKE progress (R172, R173, R184). -/
def State.tookFrame (f out : MaintFrame) (p : PokeProgress) (s : State) : State :=
  { s with
    maint :=
      { s.maint with
        position := 0
        shift := 0
        onesCount := (frameBits f).foldl onesAfter s.maint.onesCount
        lastEdge := s.timeBase
        output := out
        poke := p
        mdo := out.getMsbD 0
        mclk := false } }

/-- A whole frame can be taken from its first bit: the port is between frames and no run of 64 ones ends in it
(R172, R184). -/
def State.aligned (s : State) (f : MaintFrame) : Prop :=
  s.maint.position = 0 ∧ reachesRecovery s.maint.onesCount (frameBits f) = false

/-- The port after BUS_STOP has taken it OFFLINE (R133). -/
def State.stoppedPort (s : State) : Port :=
  { s.port with state := .offline, quietTime := 0, stopPending := false, underWay := none, lineTime := 0 }

/-- The port after an attempt has ended in `n` bit times, with the bits of a frame that may go on and the quiet bit times
behind it (R117, R129). -/
def State.leftPort (l : List Bool) (quiet n : Nat) (s : State) : Port :=
  { s.port with
    quietTime := quiet
    underWay := if l = [] then none else some l
    lineTime := s.port.lineTime + n }

/-- The frame on the line drives a 1 in bit `k`, one of destination and source, so that a 0 read there is LOST (R129). -/
def Frame.lostAt (f : Frame) (k : Nat) : Prop := k < 12 ∧ f.bits[k]? = some true

/-- Reading `x` in bit `k` of the frame on the line differs from the bit driven, and is not LOST (R129); a quiet reading
of a 1 in bits 0 to 11 is one of them (log 12). -/
def Frame.faultAt (f : Frame) (k : Nat) (x : Reading) : Prop :=
  (f.bits[k]? = some false ∧ x ≠ .zero) ∨ (f.bits[k]? = some true ∧ x ≠ .one ∧ (k < 12 → x ≠ .zero))

/-- The head block can be taken and is a command of kind `k` (R154, R155). -/
def State.canTake (s : State) (k : HostKind) (b : Block) : Prop := s.takeable = some b ∧ b.command = some k

/-- The sequence of a PUBLISH passes: the record has no reference, or the sequence is newer (R53, R55). -/
def State.passes (s : State) (i : SlotIx) (r : Record) (q : Byte) : Prop :=
  s.reference i r = none ∨ ∃ ref, s.reference i r = some ref ∧ seqClass ref q = .newer

/-- The state once the CONFIRM of a decided PUBLISH has been made, if its flags ask for one (R57). -/
def State.answered (n : Addr) (t : Tag) (q flags : Byte) (code : OutcomeCode) (s : State) : State :=
  if flags.getLsbD 0 then confirm n t q code s else s

/-- Whether an answer entry is a NOTIFY for a reference and a node, started or not (R112). -/
def Answer.notifies (ref : Ref) (n : Addr) (a : Answer) : Bool :=
  match a.body with
  | .notify r _ => decide (r = ref) && decide (a.destination = n)
  | _ => false

/-- Slot `i` once the entries `l` have been discarded unsent: the marker of every subscription that a NOTIFY among them
has is set (R112). -/
def State.unsent (l : List Answer) (s : State) (i : SlotIx) : Slot :=
  ⟨s.incarnation i, (s.record i).map fun r =>
    { r with subscribers := r.subscribers.map fun x =>
      { x with missed := x.missed || l.any (Answer.notifies ⟨i, s.incarnation i⟩ x.node) } }⟩

/-- The candidate of an attempt start stands behind `before` and ahead of `after`: the oldest class A entry, or the
oldest entry when no class A entry waits (R140). -/
def isCandidate (a : Answer) (before after : List Answer) : Prop :=
  (a.isNotify = false ∧ before.all Answer.isNotify = true) ∨
    (before = [] ∧ (a :: after).all Answer.isNotify = true)

end Sys2Proof.Machine
end

