-- ==== Sys2Proof/Certificates/Slice0/Obligations.lean ====
section
/-! DEFINITION. The statements about the PX512 that are given to the provers. -/

open Sys2Proof Sys2Proof.Machine

/-! ## The machine -/

/-- A step takes the command at the front of the queue, with the queue's rest (log 1). -/
def Obligations.StepRunsTheFrontCommand : Prop :=
  ∀ (c : Instr) (s : State) (rest : List Instr),
    step { s with pending := c :: rest } = exec c { s with pending := rest }

/-- On an empty queue the part's own due events are queued, in some order; with none due, a port that reads the line first
reads the rest of the millisecond as quiet, and then the millisecond passes. Its own events are those that the time base,
the head block, a still clock or an idle line make due. The model's choice (logs 2, 3, 5, 11). -/
def Obligations.OwnTurnOnAnEmptyQueue : Prop :=
  ∀ s : State,
    let reads := s.port.state ≠ .offline ∧ s.port.stopPending = false ∧ s.transmitter = none
    let n := s.port.bitRate.bitsPerMilli - s.port.lineTime
    (s.pending = [] → s.ownEvents ≠ [] → ∃ t, step s = .next t ∧
      t = { s with pending := t.pending, choices := s.choices + 1 } ∧ t.pending.Perm s.ownEvents) ∧
    (s.pending = [] → s.ownEvents = [] → reads → 0 < n → step s = .next { s with pending := [.busOnline n] }) ∧
    (s.pending = [] → s.ownEvents = [] → ¬ reads ∨ n = 0 → ∃ t, step s = .next t ∧
      t = { s with
        timeBase := t.timeBase
        port := { s.port with lineTime := s.port.lineTime - s.port.bitRate.bitsPerMilli } } ∧
      (s.timeBase + 1 < 2 ^ 48 → t.timeBase = s.timeBase + 1)) ∧
    (∀ i, .leaseExpiry i ∈ s.ownEvents ↔
      ∃ r d, s.record i = some r ∧ r.leaseDeadline = some d ∧ d ≤ s.timeBase) ∧
    (∀ i, .graceExpiry i ∈ s.ownEvents ↔
      ∃ r d, s.record i = some r ∧ r.state = .stale ∧ r.graceDeadline = some d ∧ d ≤ s.timeBase) ∧
    (∀ z, .freezeLimitExpiry z ∈ s.ownEvents ↔ ∃ d, (s.zone z).freeze = some d ∧ d ≤ s.timeBase) ∧
    (.frameTimeout ∈ s.ownEvents ↔ 0 < s.maint.position ∧ s.maint.lastEdge + 2 ≤ s.timeBase) ∧
    (∀ q, .attemptStart q ∈ s.ownEvents ↔ q = 0 ∧ s.answers ≠ [] ∧ s.transmitter = none ∧ s.port.state = .online ∧
      s.port.stopPending = false ∧ s.port.underWay = none ∧ 11 ≤ s.port.quietTime) ∧
    (∀ k : HostKind, k.row ∈ s.ownEvents ↔ ∃ b, s.canTake k b) ∧
    (.badCommand ∈ s.ownEvents ↔ ∃ b, s.takeable = some b ∧ b.command = none)

/-- Every command answers a next state, and no command but RESET changes the time base or rereads the straps (R22, R70).
That every command, RESET included, keeps the waiting commands and the choice counter is the model's choice (logs 1,
3). -/
def Obligations.CommandsLeaveTheQueueAndTheClock : Prop :=
  ∀ (c : Instr) (s : State), ∃ t, exec c s = .next t ∧ t.pending = s.pending ∧ t.choices = s.choices ∧
    ((∀ a r, c ≠ .reset a r) → t.timeBase = s.timeBase ∧ t.straps = s.straps)

/-- RESET puts every block to the power-on values of its chapter (R22, R24, R38, R70, R102, R103, R130, R137, R152,
R154, R156, R159, R160, R166, R169, R185). What the model's line fields of the port hold follows logs 11 and 20. -/
def Obligations.ResetRestoresThePowerOnValues : Prop :=
  ∀ (a : Addr) (rate : BitVec 2) (s : State), ∃ t, exec (.reset a rate) s = .next t ∧
    (∀ i, t.slot i = ⟨0, none⟩) ∧ t.freeQueue = List.finRange 512 ∧ t.directory = [] ∧
    t.lastTouched = ⟨0, 0, 0⟩ ∧ (∀ z, t.zone z = ⟨.disabled, .closed, 0, 0, 0, 0, 0, none⟩) ∧
    t.timeBase = 0 ∧ t.deferred = [] ∧ t.poolFree = 256 ∧
    t.port = ⟨.offline, a, .ofStraps rate, 0, false, none, 0⟩ ∧ t.answers = [] ∧ t.transmitter = none ∧
    t.settings = ⟨a, .ofStraps rate, 50, 50⟩ ∧ t.counters.report = List.replicate 9 0 ∧
    t.host.staging.toList = List.replicate 8 0 ∧ t.host.stagingPointer = 0 ∧ t.host.commands = [] ∧
    t.host.executing = false ∧ t.host.reserved = 0 ∧ t.host.completions = [] ∧ t.host.readPointer = 0 ∧
    t.intStatus = 0 ∧ t.host.enable = 0 ∧ t.intAsserted = false ∧ t.statusWord = 0 ∧
    t.maint.position = 0 ∧ t.maint.onesCount = 0 ∧ t.maint.output = BitVec.allOnes 48 ∧ t.maint.poke = .idle ∧
    t.maint.mode = .observe ∧ t.maint.mailbox = none ∧ t.mrdyHigh = true ∧
    BitRate.ofStraps 0 = .kbit125 ∧ BitRate.ofStraps 1 = .kbit250 ∧ BitRate.ofStraps 2 = .kbit500 ∧
    BitRate.ofStraps 3 = .kbit1000

/-! ## Invariants -/

/-- Every invariant of Safety.lean holds right after power-on, whatever the straps. -/
def Obligations.PowerOnIsSound : Prop :=
  ∀ x : Straps, TableSound (.powerOn x) ∧ SubscriptionsSound (.powerOn x) ∧ DeferredSound (.powerOn x) ∧
    RecordsSound (.powerOn x) ∧ AnswersSound (.powerOn x) ∧ HostSound (.powerOn x) ∧ DeviceSound (.powerOn x) ∧
    MaintSound (.powerOn x)

/-- Every step keeps record store, directory, free-slot queue and zone table in agreement. -/
def Obligations.StepKeepsTheTableSound : Prop :=
  ∀ s t : State, TableSound s → step s = .next t → TableSound t

/-- Every step keeps the subscription pool and the subscriber lists in agreement. -/
def Obligations.StepKeepsTheSubscriptionsSound : Prop :=
  ∀ s t : State, TableSound s → SubscriptionsSound s → step s = .next t → SubscriptionsSound t

/-- Every step keeps the deferred queue to records of frozen zones, one entry each. -/
def Obligations.StepKeepsTheDeferredQueueSound : Prop :=
  ∀ s t : State, TableSound s → DeferredSound s → step s = .next t → DeferredSound t

/-- Every step keeps every record sound. -/
def Obligations.StepKeepsEveryRecordSound : Prop :=
  ∀ s t : State, TableSound s → DeferredSound s → RecordsSound s → step s = .next t → RecordsSound t

/-- Every step keeps the bounds of the answer queue, and one started entry for the attempt under way. -/
def Obligations.StepKeepsTheAnswerQueueSound : Prop :=
  ∀ s t : State, AnswersSound s → step s = .next t → AnswersSound t

/-- Every step keeps the host queues within their bounds, and the executing command the pending BUS_STOP. -/
def Obligations.StepKeepsTheHostQueuesSound : Prop :=
  ∀ s t : State, HostSound s → step s = .next t → HostSound t

/-- Every step keeps the device settings, the port and the time base in their ranges, and the bit position and the ones
count of the maintenance port. The quiet time, the frame under way and the shifted bits are held as logs 10, 11 and 20
say. -/
def Obligations.StepKeepsTheRangesSound : Prop :=
  ∀ s t : State, step s = .next t → (DeviceSound s → DeviceSound t) ∧ (MaintSound s → MaintSound t)

/-! ## Rules over every step -/

/-- While a zone stays frozen, its records stay, each with its image, revision and state, and its count and change count
stand still (R46, R88, R93). -/
def Obligations.FrozenZoneHoldsItsImage : Prop :=
  ∀ (s t : State) (z : ZoneIx), TableSound s → step s = .next t → s.frozen z = true → t.frozen z = true →
    (∀ i r, s.record i = some r → zoneOf r.tag = z → ∃ r', t.record i = some r' ∧ r'.tag = r.tag ∧
      r'.image = r.image ∧ r'.revision = r.revision ∧ r'.state = r.state) ∧
    (∀ i r', t.record i = some r' → zoneOf r'.tag = z → ∃ r, s.record i = some r ∧ r.tag = r'.tag) ∧
    (t.zone z).count = (s.zone z).count ∧ (t.zone z).changeCount = (s.zone z).changeCount

/-- In a step in which at most one frame ends, and between resets, a slot's incarnation moves only as its record ceases,
and then by one (R4). That one row may hold several frames is the model's choice (log 8); each is then as the row of its
own, by RawFramesAreTakenByTheirKind. -/
def Obligations.IncarnationMovesAsASlotIsFreed : Prop :=
  ∀ s t : State, (∀ a r, s.pending.head? ≠ some (.reset a r)) → (∀ c ∈ s.pending.head?, s.AtMostOneFrame c) →
    step s = .next t → ∀ i,
    (t.incarnation i = s.incarnation i ∧ ((s.record i).isSome = true → (t.record i).isSome = true)) ∨
    (t.incarnation i = s.incarnation i + 1 ∧ (s.record i).isSome = true ∧ t.record i = none)

/-- In a step in which at most one frame ends, a record that keeps its slot's incarnation and its revision shows the same
image before and after it (R4, R5, R9, R10). That one row may hold several frames is the model's choice (log 8). -/
def Obligations.RevisionMovesWithTheImage : Prop :=
  ∀ s t : State, TableSound s → DeferredSound s → (∀ c ∈ s.pending.head?, s.AtMostOneFrame c) → step s = .next t →
    ∀ i r r', s.record i = some r → t.record i = some r' → t.incarnation i = s.incarnation i →
      r'.revision = r.revision → r'.image = r.image

/-! ## Sequences, matching, walks, requests -/

/-- The three classes of a published sequence (R52). -/
def Obligations.SequenceClasses : Prop :=
  ∀ ref q : Byte,
    let d := (q.toNat + 256 - ref.toNat) % 256
    d ≤ 255 ∧ (seqClass ref q = .duplicate ↔ d = 0) ∧ (seqClass ref q = .newer ↔ 1 ≤ d ∧ d ≤ 127) ∧
      (seqClass ref q = .older ↔ 128 ≤ d)

/-- Masked matching, bit by bit (R29); the zone of a tag is its first hexadecimal digit (R37); and the exact lookup finds the
record that has the tag (R25). -/
def Obligations.TagMatching : Prop :=
  (∀ p m t : Tag, tagMatches p m t = true ↔ ∀ k, k < 24 → m.getLsbD k = true → t.getLsbD k = p.getLsbD k) ∧
    (∀ p t : Tag, tagMatches p 0xFFFFFF t = true ↔ t = p) ∧ (∀ p t : Tag, tagMatches p 0 t = true) ∧
    (∀ p p' m t : Tag, (∀ k, k < 24 → m.getLsbD k = true → p.getLsbD k = p'.getLsbD k) →
      tagMatches p m t = tagMatches p' m t) ∧
    (∀ t : Tag, (zoneOf t).val = t.toNat / 2 ^ 20) ∧
    ∀ (s : State) (t : Tag) (i : SlotIx), TableSound s →
      (s.lookup t = some i ↔ ∃ r, s.record i = some r ∧ r.tag = t)

/-- The match walk: the first entries that match beyond the start-after tag, with MORE exactly when a further one exists;
and a walk that gave MORE goes on from its last tag (R30, R31, R34). -/
def Obligations.MatchWalkGivesTheFirstMatches : Prop :=
  ∀ (s : State) (p m a : Tag) (n : Nat), s.directory.Pairwise (fun x y => x.tag < y.tag) → 1 ≤ n →
    ∀ es more, s.walk p m a n = (es, more) →
      es.Pairwise (fun x y => x.tag < y.tag) ∧
      (∀ e ∈ es, e ∈ s.directory ∧ tagMatches p m e.tag = true ∧ a < e.tag) ∧
      es.length = min n (s.directory.countP fun e => tagMatches p m e.tag && decide (a < e.tag)) ∧
      (∀ e ∈ s.directory, tagMatches p m e.tag = true → a < e.tag → e ∉ es → ∀ x ∈ es, x.tag < e.tag) ∧
      (more = true ↔
        ∃ e ∈ s.directory, tagMatches p m e.tag = true ∧ a < e.tag ∧ ∀ x ∈ es, x.tag < e.tag) ∧
      (es.length < n → more = false) ∧
      ∀ e ∈ es.getLast?, s.matchesBeyond p m a = es ++ s.matchesBeyond p m e.tag

/-- A notification request coalesces, is admitted or is refused; a CONFIRM joins or is dropped (R109, R110, R138). -/
def Obligations.AnswersAreAdmittedByKind : Prop :=
  (∀ (t : Tag) (ref : Ref) (n : Addr) (s : State),
    (s.waits ref n = true → notifyRequest t ref n s = s) ∧
    (s.waits ref n = false → notifyCount s.answers < 16 → s.answers.length < 24 → s.port.state ≠ .offline →
      notifyRequest t ref n s =
        { s with answers := s.answers ++ [⟨.notify ref false, n, t, s.timeBase, 0, false⟩] }) ∧
    (s.waits ref n = false → (16 ≤ notifyCount s.answers ∨ 24 ≤ s.answers.length ∨ s.port.state = .offline) →
      ∃ u, notifyRequest t ref n s = u ∧
        u = { s with
          slots := u.slots
          counters := { s.counters with notifyMissed := saturatingSucc s.counters.notifyMissed } } ∧
        ∀ i, u.slot i = ⟨s.incarnation i, (s.record i).map fun r =>
          if i = ref.slot ∧ s.incarnation i = ref.incarnation then
            { r with subscribers := r.subscribers.map fun x => if x.node = n then ⟨n, true⟩ else x }
          else r⟩)) ∧
  ∀ (n : Addr) (t : Tag) (q : Byte) (c : OutcomeCode) (s : State),
    (s.answers.length < 24 →
      confirm n t q c s = { s with answers := s.answers ++ [⟨.confirm q c, n, t, s.timeBase, 0, false⟩] }) ∧
    (24 ≤ s.answers.length →
      confirm n t q c s =
        { s with counters := { s.counters with queryDropped := saturatingSucc s.counters.queryDropped } })

/-- The bits of a frame: each field in its place, most significant bit first, and the check, whose register starts at FFFFh
and takes each bit by x^16 + x^12 + x^5 + 1; and the frame read back from its bits is the frame (section 8.2, R119). -/
def Obligations.FrameBitsReadBack : Prop :=
  (∀ f : Frame, f.payload.length ≤ 8 →
    let n := f.payload.length
    f.bits.length = 84 + 8 * n ∧ parseFrame f.bits = some f ∧
    (∀ k, k < 6 → f.bits[k]? = some (f.destination.getMsbD k)) ∧
    (∀ k, k < 6 → f.bits[6 + k]? = some (f.source.getMsbD k)) ∧
    (∀ k, k < 4 → f.bits[12 + k]? = some (f.kind.getMsbD k)) ∧
    (∀ k, k < 24 → f.bits[16 + k]? = some (f.tag.getMsbD k)) ∧
    (∀ k, k < 8 → f.bits[40 + k]? = some (f.sequence.getMsbD k)) ∧
    (∀ k, k < 8 → f.bits[48 + k]? = some (f.flags.getMsbD k)) ∧
    (∀ k, k < 8 → f.bits[56 + k]? = some (f.code.getMsbD k)) ∧
    (∀ k, k < 4 → f.bits[64 + k]? = some ((BitVec.ofNat 4 n).getMsbD k)) ∧
    (∀ j x, f.payload[j]? = some x → ∀ k, k < 8 → f.bits[68 + 8 * j + k]? = some (x.getMsbD k)) ∧
    (∀ k, k < 16 → f.bits[68 + 8 * n + k]? = some ((crcOf (f.bits.take (68 + 8 * n))).getMsbD k))) ∧
  crcOf [] = 0xFFFF ∧
  ∀ (l : List Bool) (b : Bool) (k : Nat), k < 16 → (crcOf (l ++ [b])).getLsbD k =
    ((decide (0 < k) && (crcOf l).getLsbD (k - 1)) ^^
      (decide (k = 0 ∨ k = 5 ∨ k = 12) && ((crcOf l).getLsbD 15 ^^ b)))

/-- A frame with any one bit wrong fails check 1 (R118, R119, R124). -/
def Obligations.SingleBitErrorsAreDropped : Prop :=
  ∀ (f : Frame) (k : Nat) (b : Bool), f.payload.length ≤ 8 → f.bits[k]? = some b →
    parseFrame (f.bits.set k (!b)) = none

/-! ## Leases, grace, thaw -/

/-- LEASE_EXPIRY removes the deadline; a LIVE record becomes STALE, or EXPIRE is left pending in a frozen zone
(R74 to R77). That an expiry that is not due is not taken is the model's choice (log 4). -/
def Obligations.LeaseExpiryAgesTheRecord : Prop :=
  ∀ (s : State) (i : SlotIx) (r : Record) (d : Nat), s.record i = some r → r.leaseDeadline = some d →
    (s.timeBase < d → exec (.leaseExpiry i) s = .next s) ∧
    (d ≤ s.timeBase → r.state = .stale →
      exec (.leaseExpiry i) s = .next (s.setRecord i { r with leaseDeadline := none })) ∧
    (d ≤ s.timeBase → r.state = .live → s.frozen (zoneOf r.tag) = true →
      exec (.leaseExpiry i) s = .next (s.setRecord i { r with leaseDeadline := none, pendingAge := .expire })) ∧
    (d ≤ s.timeBase → r.state = .live → s.frozen (zoneOf r.tag) = false →
      ∃ u, exec (.leaseExpiry i) s = .next u ∧
        Becomes i { r with leaseDeadline := none }
          { r with
            leaseDeadline := none
            state := .stale
            graceDeadline :=
              if (s.zone (zoneOf r.tag)).grace = 0 then none
              else some (s.timeBase + 10 * (s.zone (zoneOf r.tag)).grace) }
          (s.setRecord i { r with leaseDeadline := none }) u)

/-- GRACE_EXPIRY retires a STALE record, or leaves RETIRE pending in a frozen zone (R78, R79). That an expiry that is not
due is not taken is the model's choice (log 4). -/
def Obligations.GraceExpiryRetiresTheRecord : Prop :=
  ∀ (s : State) (i : SlotIx) (r : Record) (d : Nat), s.record i = some r → r.graceDeadline = some d →
    r.state = .stale →
    (s.timeBase < d → exec (.graceExpiry i) s = .next s) ∧
    (d ≤ s.timeBase → s.frozen (zoneOf r.tag) = true →
      exec (.graceExpiry i) s = .next (s.setRecord i { r with graceDeadline := none, pendingAge := .retire })) ∧
    (d ≤ s.timeBase → s.frozen (zoneOf r.tag) = false →
      ∃ u, exec (.graceExpiry i) s = .next u ∧
        Retired i { r with graceDeadline := none } (s.setRecord i { r with graceDeadline := none }) u)

/-- THAW and FREEZE_LIMIT_EXPIRY thaw the zone in one step: it is unfrozen, its parked entries are applied, oldest first,
and then its pending age steps are taken in slot order, each with the visible change that R10 gives; so each of its
records is settled by its parked entry and its pending age step, and no other zone's records or entries are touched
(R10, R80, R86, R95 to R99). That a limit not yet reached is not taken is the model's choice (log 4), and so is the zone
of an entry, that of its record (log 23). -/
def Obligations.ThawSettlesTheZone : Prop :=
  ∀ (s : State) (z : ZoneIx), DeferredSound s → s.frozen z = true → ∃ u : State,
    (∀ b, s.canTake .thaw b → b.word 1 = BitVec.ofNat 16 z.val →
      exec .thaw s = .next (completeCommand b 1 .ok [] u)) ∧
    (∀ d, (s.zone z).freeze = some d → s.timeBase < d → exec (.freezeLimitExpiry z) s = .next s) ∧
    (∀ d, (s.zone z).freeze = some d → d ≤ s.timeBase → ∃ v, exec (.freezeLimitExpiry z) s = .next v ∧
      v = { u with host := { s.host with sticky := { s.host.sticky with freezeExpired := true } } }) ∧
    (∀ e, s.deferredInZone z e = true ↔ ∃ r, s.record e.slot = some r ∧ zoneOf r.tag = z) ∧
    (∃ (v : State) (l : List SlotIx),
      InTurn Unparked (s.deferred.filter (s.deferredInZone z))
        { s with
          zones := (s.setZone z { s.zone z with freeze := none }).zones
          deferred := s.deferred.filter fun e => !s.deferredInZone z e } v ∧
      l.Pairwise (fun i j => i < j) ∧
      (∀ i, i ∈ l ↔ ∃ r, v.record i = some r ∧ zoneOf r.tag = z ∧ r.pendingAge ≠ .noStep) ∧
      InTurn SettledPending l v u) ∧
    u.host = s.host ∧ (u.zone z).freeze = none ∧ (∀ y, y ≠ z → u.zone y = s.zone y) ∧
    u.deferred = s.deferred.filter (fun e => !s.deferredInZone z e) ∧
    (∀ i, s.record i = none → u.slot i = s.slot i) ∧
    (∀ i r, s.record i = some r → zoneOf r.tag ≠ z → u.slot i = s.slot i) ∧
    ∀ i r, s.record i = some r → zoneOf r.tag = z →
      (∀ e, s.deferredOf i = some e → u.incarnation i = s.incarnation i ∧ ∃ n l, u.record i = some
        { r with
          state := .live
          processValue := some e.value
          lastSequence := some e.sequence
          lastUpdate := s.timeBase
          leaseDeadline := leaseAfter s r
          graceDeadline := if r.state = .stale then none else r.graceDeadline
          pendingAge := .noStep
          revision := n
          subscribers := l } ∧ l.map (·.node) = r.subscribers.map (·.node)) ∧
      (s.deferredOf i = none → r.pendingAge = .expire → r.state = .live →
        u.incarnation i = s.incarnation i ∧ ∃ n l, u.record i = some
          { r with
            state := .stale
            graceDeadline :=
              if (s.zone z).grace = 0 then none else some (s.timeBase + 10 * (s.zone z).grace)
            pendingAge := .noStep
            revision := n
            subscribers := l } ∧ l.map (·.node) = r.subscribers.map (·.node)) ∧
      (s.deferredOf i = none → r.pendingAge = .retire → r.state = .stale →
        u.slot i = ⟨s.incarnation i + 1, none⟩) ∧
      (s.deferredOf i = none →
        (r.pendingAge = .noStep ∨ (r.pendingAge = .expire ∧ r.state = .stale) ∨
          (r.pendingAge = .retire ∧ r.state = .live)) →
        u.slot i = ⟨s.incarnation i, some { r with pendingAge := .noStep }⟩)

/-! ## Frames from the point bus -/

/-- A frame that the port does not take: not read, begun on a line that is not idle, bad, or ignored (R117, R118, R122,
R124, R125, R132, R134). That a row of readings is of other stations, that in an attempt it is one from an idle line
before it and quiet is nothing, and the line fields of the port behind it, are the model's choice (logs 4, 8, 10, 11). -/
def Obligations.FramesNotTaken : Prop :=
  ∀ s : State,
    (s.transmitter ≠ none → ∀ n, exec (.busOnline n) s = .next s) ∧
    (s.port.state = .offline ∨ s.port.stopPending = true →
      (∀ l, exec (.frameDropped l) s = .next s) ∧ (∀ n, exec (.busOnline n) s = .next s) ∧
      ∀ (dst src : Addr) (t : Tag) (q fl : Byte) (v : List Byte),
        exec (.publish dst src t q fl v) s = .next s ∧ exec (.withdraw dst src t q) s = .next s ∧
        exec (.subscribe dst src t q) s = .next s ∧ exec (.unsubscribe dst src t q) s = .next s ∧
        exec (.query dst src t v) s = .next s) ∧
    (s.port.state ≠ .offline → s.port.stopPending = false → ∀ l : List Bool,
      let ended := exec (.frameDropped ((l.map fun b => if b then Reading.one else .zero) ++ [.quiet])) s
      let u := { s with
        port :=
          if s.transmitter = none then
            { s.port with quietTime := 1, underWay := none, lineTime := s.port.lineTime + (l.length + 1) }
          else s.port }
      (s.transmitter = none → s.port.underWay = none → s.port.quietTime < 11 → l ≠ [] → ended = .next u) ∧
      ∀ l0, ((s.transmitter = none ∧ s.port.underWay = some l0) ∨
          (s.transmitter = none ∧ s.port.underWay = none ∧ 11 ≤ s.port.quietTime ∧ l0 = [] ∧ l ≠ []) ∨
          (s.transmitter ≠ none ∧ l0 = [] ∧ l ≠ [])) →
        let bad := ended = .next { u with counters := { s.counters with rxBad := saturatingSucc s.counters.rxBad } }
        (parseFrame (l0 ++ l) = none → bad) ∧
        ∀ f, parseFrame (l0 ++ l) = some f →
          (f.source = 0 ∨ f.source = 63 ∨ f.kind ∉ [1, 2, 3, 4, 5, 8, 9, 10] → bad) ∧
          (f.source = s.port.ownAddress → bad) ∧
          (f.source ≠ 0 → f.source ≠ 63 → f.kind ∈ [1, 2, 3, 4, 5, 8, 9, 10] → f.source ≠ s.port.ownAddress →
            (f.destination ≠ s.port.ownAddress ∧ f.destination ≠ 63) ∨ f.kind ∈ [8, 9, 10] ∨
              (f.destination = 63 ∧ f.kind ≠ 1) → ended = .next u))

/-- The readings of the line: a bit goes on with the frame under way, or starts one on an idle line, and breaks the
quiet (R117, R132). A whole request frame behind 11 quiet bit times is taken as the row of its kind takes it from its
fields; the fields that R118 does not list for the kind are not read (R117, R118, R123, R126). That a row is such
readings, and in an attempt such readings before it, is the model's choice (logs 8, 10, 11). -/
def Obligations.RawFramesAreTakenByTheirKind : Prop :=
  (∀ (s : State) (l m : List Reading) (t : State), s.transmitter = none → exec (.frameDropped l) s = .next t →
    exec (.frameDropped (l ++ m)) s = exec (.frameDropped m) t) ∧
  (∀ (s : State) (l m : List Reading) (t : State), s.transmitter ≠ none →
    exec (.frameDropped (l ++ List.replicate 11 .quiet)) s = .next t →
    exec (.frameDropped (l ++ List.replicate 11 .quiet ++ m)) s = exec (.frameDropped m) t) ∧
  (∀ s : State, exec (.frameDropped []) s = .next s) ∧
  (∀ (s : State) (n : Nat), exec (.busOnline n) s = exec (.frameDropped (List.replicate n .quiet)) s) ∧
  (∀ (s : State) (b : Bool), s.port.state ≠ .offline → s.port.stopPending = false → s.transmitter = none →
    let went := fun x => exec (.frameDropped [if b then .one else .zero]) s = .next
      { s with port := { s.port with quietTime := 0, lineTime := s.port.lineTime + 1, underWay := x } }
    (∀ l, s.port.underWay = some l → went (some (l ++ [b]))) ∧
    (s.port.underWay = none → 11 ≤ s.port.quietTime → went (some [b])) ∧
    (s.port.underWay = none → s.port.quietTime < 11 → went none)) ∧
  ∀ (f : Frame) (s : State), f.payload.length ≤ 8 →
    let n := 8 * f.payload.length
    let whole := exec (.frameDropped (List.replicate 11 .quiet ++
      (f.bits.map fun b => if b then Reading.one else .zero) ++ [.quiet])) s
    let later := fun c => s.port.state ≠ .offline → s.port.stopPending = false → ∃ u, exec c s = .next u ∧
      whole = .next (if s.transmitter = none then
        { u with port := { u.port with lineTime := u.port.lineTime + n } } else u)
    (f.kind = 1 → whole = exec (.publish f.destination f.source f.tag f.sequence f.flags f.payload) s) ∧
    (f.kind = 2 → whole = exec (.query f.destination f.source f.tag f.payload) s) ∧
    (f.kind = 3 → later (.withdraw f.destination f.source f.tag f.sequence)) ∧
    (f.kind = 4 → later (.subscribe f.destination f.source f.tag f.sequence)) ∧
    (f.kind = 5 → later (.unsubscribe f.destination f.source f.tag f.sequence))

/-- The refusals of a PUBLISH, in the order of its checks: counted, confirmed if asked, and nothing else (R54, R56, R57,
R92). That the row is that frame behind 11 quiet bit times, in an attempt one that ended before it, and the line fields
of the port behind it, are the model's choice (logs 8, 10, 11). -/
def Obligations.PublishRefusalsInOrder : Prop :=
  ∀ (s : State) (dst src : Addr) (t : Tag) (q fl : Byte) (v : List Byte), s.Hears s.port.ownAddress src →
    (dst = s.port.ownAddress ∨ dst = 63) → v.length ≤ 8 →
    let refused := fun c => exec (.publish dst src t q fl v) s = .next
      (State.answered src t q fl c
        { s.heard v.length with
          counters := { (s.heard v.length).counters with
            refused := saturatingSucc (s.heard v.length).counters.refused } })
    let x := s.zone (zoneOf t)
    (t = 0 → refused .badTag) ∧ (t ≠ 0 → x.status = .disabled → refused .noZone) ∧
    (t ≠ 0 → x.status = .active → s.lookup t = none →
      (x.admission = .closed → refused .noRecord) ∧
      (x.admission = .opened → x.freeze ≠ none → refused .zoneFrozen) ∧
      (x.admission = .opened → x.freeze = none → x.quota ≤ x.count → refused .quota) ∧
      (x.admission = .opened → x.freeze = none → x.count < x.quota → s.freeQueue = [] → refused .tableFull) ∧
      (x.admission = .opened → x.freeze = none → x.count < x.quota → s.freeQueue ≠ [] → v = [] →
        refused .badLength)) ∧
    ∀ i r, s.Finds t i r →
      (r.producer ≠ .node src → refused .notOwner) ∧
      (r.producer = .node src → v.length ≠ r.length → refused .badLength) ∧
      (r.producer = .node src → v.length = r.length → s.passes i r q → x.freeze ≠ none → s.deferredOf i = none →
        32 ≤ s.deferred.length → refused .deferFull)

/-- A PUBLISH of an unknown tag in an OPEN zone creates its record (R15, R16, R54, R57). That the row is that frame
behind 11 quiet bit times, in an attempt one that ended before it, and the line fields of the port behind it, are the
model's choice (logs 8, 10, 11). -/
def Obligations.PublishCreatesARecord : Prop :=
  ∀ (s : State) (dst src : Addr) (t : Tag) (q fl : Byte) (v : List Byte) (i : SlotIx) (rest : List SlotIx),
    s.Hears s.port.ownAddress src → (dst = s.port.ownAddress ∨ dst = 63) → v ≠ [] → v.length ≤ 8 → t ≠ 0 →
    (s.zone (zoneOf t)).status = .active → (s.zone (zoneOf t)).admission = .opened →
    (s.zone (zoneOf t)).freeze = none → (s.zone (zoneOf t)).count < (s.zone (zoneOf t)).quota →
    s.lookup t = none → s.freeQueue = i :: rest →
    ∃ u, exec (.publish dst src t q fl v) s = .next u ∧
      Created i
        ⟨.live, t, .node src, v.length, some v, some q, none, 0, s.timeBase,
          if (s.zone (zoneOf t)).lease = 0 then none else some (s.timeBase + 10 * (s.zone (zoneOf t)).lease),
          none, .noStep, []⟩
        (State.answered src t q fl .created (s.heard v.length)) u

/-- A PUBLISH that passes its checks in a zone not frozen is applied with a renewal (R53 to R58, R72). That the row is
that frame behind 11 quiet bit times, in an attempt one that ended before it, and the line fields of the port behind it,
are the model's choice (logs 8, 10, 11). -/
def Obligations.PublishAppliesAnUpdate : Prop :=
  ∀ (s : State) (dst src : Addr) (t : Tag) (q fl : Byte) (v : List Byte) (i : SlotIx) (r : Record),
    s.Hears s.port.ownAddress src → (dst = s.port.ownAddress ∨ dst = 63) → v.length ≤ 8 → s.Finds t i r →
    r.tag = t → r.producer = .node src → v.length = r.length → s.passes i r q →
    (s.zone (zoneOf t)).freeze = none →
    ∃ u, exec (.publish dst src t q fl v) s = .next u ∧
      Becomes i r
        { r with
          state := .live
          processValue := some v
          lastSequence := some q
          lastUpdate := s.timeBase
          leaseDeadline := leaseAfter s r
          graceDeadline := if r.state = .stale then none else r.graceDeadline
          pendingAge := pendingAfter r }
        (State.answered src t q fl .ok (s.heard v.length)) u

/-- A PUBLISH answered DUPLICATE, OLD or DEFERRED: what it renews, parks or supersedes, and nothing else; and the
reference that its sequence is judged against (R53, R55, R56, R90, R91). That the row is that frame behind 11 quiet bit
times, in an attempt one that ended before it, and the line fields of the port behind it, are the model's choice (logs
8, 10, 11). -/
def Obligations.PublishRenewsParksOrIsOld : Prop :=
  (∀ (s : State) (i : SlotIx) (r : Record),
    (∀ e, s.deferredOf i = some e → s.reference i r = some e.sequence) ∧
    (s.deferredOf i = none → r.state = .live → s.reference i r = r.lastSequence) ∧
    (s.deferredOf i = none → r.state = .stale → s.reference i r = none)) ∧
  ∀ (s : State) (dst src : Addr) (t : Tag) (q fl : Byte) (v : List Byte) (i : SlotIx) (r : Record),
    s.Hears s.port.ownAddress src → (dst = s.port.ownAddress ∨ dst = 63) → v.length ≤ 8 → s.Finds t i r →
    r.tag = t → r.producer = .node src → v.length = r.length →
    let renewed := { r with leaseDeadline := leaseAfter s r, pendingAge := pendingAfter r }
    (∀ ref, s.reference i r = some ref → seqClass ref q = .duplicate →
      exec (.publish dst src t q fl v) s = .next
        ((State.answered src t q fl .duplicate (s.heard v.length)).setRecord i { renewed with lastUpdate := s.timeBase })) ∧
    (∀ ref, s.reference i r = some ref → seqClass ref q = .older →
      exec (.publish dst src t q fl v) s = .next
        ((State.answered src t q fl .old (s.heard v.length)).count .oldSeq)) ∧
    (s.passes i r q → (s.zone (zoneOf t)).freeze ≠ none → s.deferredOf i = none → s.deferred.length < 32 →
      exec (.publish dst src t q fl v) s = .next
        (((State.answered src t q fl .deferred (s.heard v.length)).withDeferred
          (s.deferred ++ [⟨i, s.incarnation i, q, v⟩])).setRecord i renewed)) ∧
    (s.passes i r q → (s.zone (zoneOf t)).freeze ≠ none → (s.deferredOf i).isSome = true →
      exec (.publish dst src t q fl v) s = .next
        ((((State.answered src t q fl .deferred (s.heard v.length)).withDeferred
          (s.deferred.map fun e =>
            if e.slot = i ∧ e.incarnation = s.incarnation i then ⟨i, e.incarnation, q, v⟩ else e)).setRecord i
              renewed).count .superseded))

/-- A WITHDRAW retires its producer's record with a CONFIRM ahead of the GONE requests, or is refused in the order of
its checks (R17, R60). That the row is that frame behind 11 quiet bit times, in an attempt one that ended before it, and
the line fields of the port behind it, are the model's choice (logs 8, 10, 11). -/
def Obligations.WithdrawRetiresOrIsRefused : Prop :=
  ∀ (s : State) (dst src : Addr) (t : Tag) (q : Byte), s.Hears dst src →
    let refused := fun c => exec (.withdraw dst src t q) s = .next (confirm src t q c ((s.heard 0).count .refused))
    (t = 0 → refused .badTag) ∧ (t ≠ 0 → (s.zone (zoneOf t)).status = .disabled → refused .noZone) ∧
    (t ≠ 0 → (s.zone (zoneOf t)).status = .active → s.lookup t = none → refused .noRecord) ∧
    ∀ i r, s.Finds t i r → (r.producer ≠ .node src → refused .notOwner) ∧
      (r.producer = .node src → (s.zone (zoneOf t)).freeze ≠ none → refused .zoneFrozen) ∧
      (r.producer = .node src → (s.zone (zoneOf t)).freeze = none →
        ∃ u, exec (.withdraw dst src t q) s = .next u ∧ Retired i r (confirm src t q .ok (s.heard 0)) u)

/-- SUBSCRIBE and UNSUBSCRIBE: an entry joins the list at its tail or leaves it, with a CONFIRM, and a SUBSCRIBE makes
its initial request behind it; or the request is refused in the order of its checks (R105 to R107). That the row is that
frame behind 11 quiet bit times, in an attempt one that ended before it, and the line fields of the port behind it, are
the model's choice (logs 8, 10, 11). -/
def Obligations.SubscribeAndUnsubscribe : Prop :=
  ∀ (s : State) (dst src : Addr) (t : Tag) (q : Byte), s.Hears dst src →
    let refused := fun c => confirm src t q c ((s.heard 0).count .refused)
    (t = 0 → exec (.subscribe dst src t q) s = .next (refused .badTag) ∧
      exec (.unsubscribe dst src t q) s = .next (refused .badTag)) ∧
    (t ≠ 0 → (s.zone (zoneOf t)).status = .disabled →
      exec (.subscribe dst src t q) s = .next (refused .noZone) ∧
      exec (.unsubscribe dst src t q) s = .next (refused .noZone)) ∧
    (t ≠ 0 → (s.zone (zoneOf t)).status = .active → s.lookup t = none →
      exec (.subscribe dst src t q) s = .next (refused .noRecord) ∧
      exec (.unsubscribe dst src t q) s = .next (refused .noRecord)) ∧
    ∀ i r, s.Finds t i r →
      (src ∈ r.subscribers.map (·.node) →
        exec (.subscribe dst src t q) s = .next (confirm src t q .ok (s.heard 0))) ∧
      (src ∉ r.subscribers.map (·.node) → 4 ≤ r.subscribers.length →
        exec (.subscribe dst src t q) s = .next (refused .listFull)) ∧
      (src ∉ r.subscribers.map (·.node) → r.subscribers.length < 4 → s.poolFree = 0 →
        exec (.subscribe dst src t q) s = .next (refused .poolEmpty)) ∧
      (src ∉ r.subscribers.map (·.node) → r.subscribers.length < 4 → 0 < s.poolFree →
        exec (.subscribe dst src t q) s = .next
          (notifyRequest t ⟨i, s.incarnation i⟩ src
            (confirm src t q .ok
              (((s.heard 0).setRecord i { r with subscribers := r.subscribers ++ [⟨src, false⟩] }).withPoolFree
                (s.poolFree - 1))))) ∧
      (src ∉ r.subscribers.map (·.node) →
        exec (.unsubscribe dst src t q) s = .next (confirm src t q .ok (s.heard 0))) ∧
      ∀ before x after, r.subscribers = before ++ x :: after → x.node = src → src ∉ before.map (·.node) →
        exec (.unsubscribe dst src t q) s = .next
          (confirm src t q .ok
            (((s.heard 0).setRecord i { r with subscribers := before ++ after }).withPoolFree (s.poolFree + 1)))

/-- A QUERY is dropped, answered as bad, answered NOT_FOUND with END, or answered with one REPLY for each entry of a
walk shortened to the free entries (R33, R127, R128). That the row is that frame behind 11 quiet bit times, in an
attempt one that ended before it, and the line fields of the port behind it, are the model's choice (logs 8, 10, 11). -/
def Obligations.QueryIsAnsweredFromTheWalk : Prop :=
  ∀ (s : State) (dst src : Addr) (p : Tag) (v : List Byte), s.Hears dst src → v.length ≤ 8 →
    (24 ≤ s.answers.length → exec (.query dst src p v) s = .next ((s.heard v.length).count .queryDropped)) ∧
    (s.answers.length < 24 →
      let one := fun last => exec (.query dst src p v) s = .next
        { s.heard v.length with answers := s.answers ++ [⟨.reply none false last true, src, p, s.timeBase, 0, false⟩] }
      (v.length ≠ 7 → one false) ∧
      ∀ m0 m1 m2 a0 a1 a2 n, v = [m0, m1, m2, a0, a1, a2, n] →
        (n = 0 ∨ 4 < n.toNat ∨ (p = 0 ∧ m0 = 0xFF ∧ m1 = 0xFF ∧ m2 = 0xFF) → one false) ∧
        (n ≠ 0 → n.toNat ≤ 4 → ¬ (p = 0 ∧ m0 = 0xFF ∧ m1 = 0xFF ∧ m2 = 0xFF) →
          ∀ es more, s.walk p (m0 ++ m1 ++ m2) (a0 ++ a1 ++ a2) (min n.toNat (24 - s.answers.length)) = (es, more) →
            (es = [] → one true) ∧
            (es ≠ [] → exec (.query dst src p v) s = .next
              { s.heard v.length with
                answers := s.answers ++ es.zipIdx.map fun x =>
                  ⟨.reply (some ⟨x.1.slot, s.incarnation x.1.slot⟩) (decide (x.2 + 1 = es.length) && more)
                    (decide (x.2 + 1 = es.length) && !more) false, src, x.1.tag, s.timeBase, 0, false⟩ })))

/-! ## Joining, leaving and using the line -/

/-- BUS_START takes an OFFLINE port into JOINING, with no quiet read and no frame under way, and 2 ms of quiet take it ONLINE
(R116, R122, R131, R132, R166). That a refused start copies nothing, that quiet comes as rows of so many bit times and is
counted in ONLINE too, and where in a millisecond a start falls, are the model's choice (logs 4, 10, 11, 21). -/
def Obligations.JoiningTheLine : Prop :=
  (BitRate.bitsPerMilli .kbit125 = 125 ∧ BitRate.bitsPerMilli .kbit250 = 250 ∧ BitRate.bitsPerMilli .kbit500 = 500 ∧
    BitRate.bitsPerMilli .kbit1000 = 1000) ∧
  (∀ (s : State) (n : Nat), s.port.state ≠ .offline → s.port.stopPending = false → s.transmitter = none →
    (n = 0 → exec (.busOnline n) s = .next s) ∧
    (0 < n → s.port.underWay = none → exec (.busOnline n) s = .next
      { s with port := { s.port with
        quietTime := s.port.quietTime + n
        lineTime := s.port.lineTime + n
        state :=
          if s.port.state = .joining ∧ 2 * s.port.bitRate.bitsPerMilli ≤ s.port.quietTime + n then .online
          else s.port.state } })) ∧
  ∀ (s : State) (b : Block), s.canTake .busStart b →
    (s.port.state ≠ .offline → exec .busStart s = .next (completeCommand b 1 .busActive [] s)) ∧
    (s.port.state = .offline → s.settings.ownAddress = 0 ∨ s.settings.ownAddress = 63 →
      exec .busStart s = .next (completeCommand b 1 .badArgument [] s)) ∧
    (s.port.state = .offline → s.settings.ownAddress ≠ 0 → s.settings.ownAddress ≠ 63 →
      ∃ x, x < s.settings.bitRate.bitsPerMilli ∧ exec .busStart s = .next (completeCommand b 1 .ok []
        { s with port := { s.port with
          state := .joining
          ownAddress := s.settings.ownAddress
          bitRate := s.settings.bitRate
          quietTime := 0
          underWay := none
          lineTime := x } }))

/-- BUS_STOP: at once when no attempt is under way, and else pending until the attempt ends, in whose event the queue is
emptied with the markers of its NOTIFYs, the port goes OFFLINE and the command completes; a SENT entry has left the
queue before, and a third FAULT is counted (R112, R133, R134, R144 to R146, R168). That a reading that ends nothing
changes nothing, that a FAULT's cut echo is not counted in RX_BAD when the port goes OFFLINE in that event, that a quiet
reading of a 1 in bits 0 to 11 is a FAULT, and the line fields of the stopped port, are the model's choice (logs 4, 8,
10, 11, 12). -/
def Obligations.BusStopEmptiesTheQueue : Prop :=
  (∀ (s : State) (b : Block), s.canTake .busStop b →
    (s.port.state = .offline → exec .busStop s = .next (completeCommand b 1 .ok [] s)) ∧
    (s.port.state = .online → s.transmitter ≠ none →
      exec .busStop s = .next
        { s with
          port := { s.port with stopPending := true, underWay := none }
          host := { s.host with executing := true, reserved := 1 } }) ∧
    (s.port.state = .joining ∨ (s.port.state = .online ∧ s.transmitter = none) →
      ∃ u, exec .busStop s = .next (completeCommand b 1 .ok [] u) ∧ (∀ i, u.slot i = State.unsent s.answers s i) ∧
        u = { s with slots := u.slots, answers := [], port := s.stoppedPort })) ∧
  ∀ (s : State) (f : Frame) (b : Block), s.transmitter = some f → s.port.stopPending = true →
    s.host.commands.head? = some b →
    let atLimit := ∃ a, s.answers.find? (·.started) = some a ∧ 2 ≤ a.faultCount
    let stops := fun (c : Instr) (unsent : List Answer) (counters : Counters) (sticky : Sticky) =>
      ∃ u, exec c s = .next (completeCommand b 1 .ok [] u) ∧ (∀ i, u.slot i = State.unsent unsent s i) ∧
        u = { s with
          slots := u.slots
          answers := []
          transmitter := none
          port := s.stoppedPort
          counters := counters
          host := { s.host with sticky := sticky } }
    stops .attemptSent (s.answers.eraseP (·.started)) s.counters s.host.sticky ∧
    (∀ k, f.lostAt k → stops (.attemptLost k) s.answers s.counters s.host.sticky) ∧
    (∀ k x, f.faultAt k x →
      (¬ atLimit → stops (.attemptFault k x) s.answers s.counters s.host.sticky) ∧
      (atLimit → stops (.attemptFault k x) s.answers
        { s.counters with txFaults := saturatingSucc s.counters.txFaults } { s.host.sticky with txFault := true })) ∧
    (∀ k, ¬ f.lostAt k → exec (.attemptLost k) s = .next s) ∧
    ∀ k x, ¬ f.faultAt k x → exec (.attemptFault k x) s = .next s

/-- ATTEMPT_START: an expired candidate is discarded and the choice made again; a candidate in its lifetime is bound and
started, and takes the marker of its subscription; with an empty queue, or when an attempt cannot start, nothing happens
(R111, R112, R140 to R142). The operand, what starts no attempt, and the quiet time in ONLINE are the model's choice
(logs 4, 10, 11). -/
def Obligations.AttemptStartBindsTheCandidate : Prop :=
  (∀ (s t : State) (q : Nat), exec (.busOnline q) s = .next t → exec (.attemptStart q) s = exec (.attemptStart 0) t) ∧
  ∀ s : State,
    (s.answers = [] ∨ s.transmitter ≠ none ∨ s.port.state ≠ .online ∨ s.port.stopPending = true ∨
        s.port.underWay ≠ none ∨ s.port.quietTime < 11 →
      exec (.attemptStart 0) s = .next s) ∧
    (s.transmitter = none → s.port.state = .online → s.port.stopPending = false → s.port.underWay = none →
      11 ≤ s.port.quietTime →
      ∀ before a after, s.answers = before ++ a :: after → isCandidate a before after →
        (s.settings.answerLifetime < s.timeBase - a.enqueueTime → ∃ u,
          exec (.attemptStart 0) s = exec (.attemptStart 0) u ∧ (∀ i, u.slot i = State.unsent [a] s i) ∧
          u = { s with
            slots := u.slots
            answers := before ++ after
            counters := { s.counters with answerExpired := saturatingSucc s.counters.answerExpired } }) ∧
        (s.timeBase - a.enqueueTime ≤ s.settings.answerLifetime →
          (a.isNotify = false → exec (.attemptStart 0) s = .next
            { s with
              answers := before ++ { a with started := true } :: after
              transmitter := some (s.bindAnswer a) }) ∧
          ∀ ref m, a.body = .notify ref m → ∃ u m', exec (.attemptStart 0) s = .next u ∧
            (m' = true ↔ m = true ∨
              ∃ x, s.subscription ref a.destination = some x ∧ x.missed = true) ∧
            u = { s with
              slots := u.slots
              answers := before ++ { a with body := .notify ref m', started := true } :: after
              transmitter := some (s.bindAnswer { a with body := .notify ref m' }) } ∧
            ∀ i, u.slot i = ⟨s.incarnation i, (s.record i).map fun r =>
              if i = ref.slot ∧ s.incarnation i = ref.incarnation then
                { r with subscribers := r.subscribers.map fun x =>
                  if x.node = a.destination then ⟨x.node, false⟩ else x }
              else r⟩))

/-- The frame that an answer entry is bound to (R8, R120, R142). -/
def Obligations.AnswersBindToTheImage : Prop :=
  (∀ more last notFound missed, ∀ k, k < 8 → (flagsByte more last notFound missed).getLsbD k =
    ((k == 1 && more) || (k == 2 && last) || (k == 3 && notFound) || (k == 4 && missed))) ∧
  ∀ (s : State) (a : Answer),
    (∀ ref more last nf, a.body = .reply (some ref) more last nf →
      (∀ r, s.record ref.slot = some r → s.incarnation ref.slot = ref.incarnation →
        s.bindAnswer a = ⟨a.destination, s.port.ownAddress, 8, a.tag, r.revision.extractLsb' 0 8,
          flagsByte more last nf false, r.quality.code, r.visibleValue.getD []⟩) ∧
      (s.record ref.slot = none ∨ s.incarnation ref.slot ≠ ref.incarnation →
        s.bindAnswer a = ⟨a.destination, s.port.ownAddress, 8, a.tag, 0, flagsByte more last nf false, 4, []⟩)) ∧
    (∀ more last nf, a.body = .reply none more last nf →
      s.bindAnswer a = ⟨a.destination, s.port.ownAddress, 8, a.tag, 0, flagsByte more last nf false, 5, []⟩) ∧
    (∀ ref m, a.body = .notify ref m →
      (∀ r, s.record ref.slot = some r → s.incarnation ref.slot = ref.incarnation →
        s.bindAnswer a = ⟨a.destination, s.port.ownAddress, 9, a.tag, r.revision.extractLsb' 0 8,
          flagsByte false false false m, r.quality.code, r.visibleValue.getD []⟩) ∧
      (s.record ref.slot = none ∨ s.incarnation ref.slot ≠ ref.incarnation →
        s.bindAnswer a = ⟨a.destination, s.port.ownAddress, 9, a.tag, 0, flagsByte false false false m, 4, []⟩)) ∧
    ∀ q c, a.body = .confirm q c →
      s.bindAnswer a = ⟨a.destination, s.port.ownAddress, 10, a.tag, q, 0, c.number, []⟩

/-- The ends of an attempt without a stop pending: SENT removes the entry, and a frame that went on behind the last bit
sent, which comes as FRAME_DROPPED before, is not the port's own and is bad; LOST and FAULT return it, once it is not a
duplicate; the third FAULT discards it; and what was read of the line is a frame under way, which a quiet reading ends
short (R113, R117, R125, R129, R144 to R146). That a reading that ends nothing changes nothing, the operands, the
counting of what was cut short, and the line behind an attempt, are the model's choice (logs 4, 8, 10, 11, 12). -/
def Obligations.AttemptEndsSettleTheEntry : Prop :=
  ∀ (s : State) (f : Frame) (before after : List Answer) (a : Answer), s.transmitter = some f →
    s.port.stopPending = false → s.answers = before ++ a :: after → a.started = true →
    (∀ x ∈ before ++ after, x.started = false) → s.port.state = .online → s.port.underWay = none →
    11 ≤ s.port.quietTime → f.payload.length ≤ 8 →
    let left := fun k x =>
      match x with
      | Reading.zero => s.leftPort (f.bits.take k ++ [false]) 0 (k + 1)
      | .one => s.leftPort (f.bits.take k ++ [true]) 0 (k + 1)
      | .quiet => s.leftPort [] (if k = 0 then s.port.quietTime + 1 else 1) (k + 1)
    let cut := fun (k : Nat) x =>
      if x = Reading.quiet ∧ k ≠ 0 then { s.counters with rxBad := saturatingSucc s.counters.rxBad } else s.counters
    let free := fun k x => { s with transmitter := none, port := left k x, counters := cut k x }
    let back := fun n k x =>
      { free k x with answers := before ++ { a with started := false, faultCount := n } :: after }
    let sent :=
      { s with transmitter := none, answers := before ++ after, port := s.leftPort [] 1 (f.bits.length + 1) }
    exec .attemptSent s = .next sent ∧
    (∀ l : List Bool, l ≠ [] → ∃ u,
      exec (.frameDropped (((f.bits ++ l).map fun b => if b then Reading.one else .zero) ++ [.quiet])) s = .next u ∧
      exec .attemptSent u = .next
        { sent with counters := { s.counters with rxBad := saturatingSucc s.counters.rxBad } }) ∧
    (∀ k, ¬ f.lostAt k → exec (.attemptLost k) s = .next s) ∧
    (∀ k x, ¬ f.faultAt k x → exec (.attemptFault k x) s = .next s) ∧
    (∀ c n k x, (c = .attemptLost k ∧ f.lostAt k ∧ n = a.faultCount ∧ x = .zero) ∨
        (c = .attemptFault k x ∧ f.faultAt k x ∧ a.faultCount < 2 ∧ n = a.faultCount + 1) →
      ((∀ ref m, a.body ≠ .notify ref m) → exec c s = .next (back n k x)) ∧
      ∀ ref m, a.body = .notify ref m →
        (s.waits ref a.destination = false → exec c s = .next (back n k x)) ∧
        (s.waits ref a.destination = true → exec c s = .next
          (if m then setMarker ref a.destination true { free k x with answers := before ++ after }
           else { free k x with answers := before ++ after }))) ∧
    ∀ k x, f.faultAt k x → 2 ≤ a.faultCount → ∃ u, exec (.attemptFault k x) s = .next u ∧
      (∀ i, u.slot i = State.unsent [a] s i) ∧
      u = { free k x with
        slots := u.slots
        answers := before ++ after
        counters := { cut k x with txFaults := saturatingSucc s.counters.txFaults }
        host := { s.host with sticky := { s.host.sticky with txFault := true } } }

/-! ## The host port -/

/-- CMD_DATA, and the staging buffer at a submission and at RESET# (R152). -/
def Obligations.StagingBuffer : Prop :=
  (∀ (a : Addr) (rate : BitVec 2) (s : State), ∃ t, exec (.reset a rate) s = .next t ∧
    t.host.staging = Vector.replicate 8 0 ∧ t.host.stagingPointer = 0) ∧
  (∀ x : Straps, (State.powerOn x).host.staging = Vector.replicate 8 0 ∧
    (State.powerOn x).host.stagingPointer = 0) ∧
  (∀ (s : State) (w : Word),
    (∀ h : s.host.stagingPointer < 8, exec (.cmdData w) s = .next
      { s with host := { s.host with
        staging := s.host.staging.set s.host.stagingPointer w h
        stagingPointer := s.host.stagingPointer + 1 } }) ∧
    (s.host.stagingPointer = 8 → exec (.cmdData w) s = .next s)) ∧
  (∀ (s : State) (n : Word), ∃ t, exec (.cmdSubmit n) s = .next t ∧ t.host.staging = s.host.staging ∧
    (s.host.commands.length < 4 → 1 ≤ n.toNat → n.toNat ≤ 8 →
      ∃ b : Block, t.host.commands = s.host.commands ++ [b] ∧ b.words.length = n.toNat ∧
        ∀ k (h : k < 8), k < n.toNat → b.word k = s.host.staging[k])) ∧
  ∀ s t : State, HostSound s → step s = .next t → t.host.stagingPointer ≤ 8

/-- CMD_SUBMIT (R153). -/
def Obligations.SubmissionCopiesTheStagedWords : Prop :=
  ∀ (s : State) (n : Word),
    (4 ≤ s.host.commands.length → exec (.cmdSubmit n) s = .next
      { s with host := { s.host with
        stagingPointer := 0
        sticky := { s.host.sticky with submitLost := true } } }) ∧
    (s.host.commands.length < 4 → ∃ b : Block, exec (.cmdSubmit n) s = .next
        { s with host := { s.host with stagingPointer := 0, commands := s.host.commands ++ [b] } } ∧
      (1 ≤ n.toNat → n.toNat ≤ 8 → b.wrongCount = false ∧ b.words.length = n.toNat ∧
        ∀ k (h : k < 8), k < n.toNat → b.word k = s.host.staging[k]) ∧
      (n.toNat = 0 ∨ 8 < n.toNat → b.wrongCount = true ∧ b.words = s.host.staging.toList ∧ b.command = none))

/-- CPL_DATA, CPL_POP, MAINT_MAILBOX and the ignored writes (R151, R156, R157, R161); that the word read stays on D0 to
D15 is the model's choice (log 15). -/
def Obligations.CompletionAndMailboxAccesses : Prop :=
  ∀ s : State,
    (s.host.completions = [] →
      exec .cplData s = .next { s with host := { s.host with data := 0, readPointer := 0 } }) ∧
    (∀ e es, s.host.completions = e :: es →
      ∃ p : Fin 8, p.val = (s.host.readPointer.val + 1) % 8 ∧ exec .cplData s = .next
        { s with host := { s.host with data := e[s.host.readPointer.val], readPointer := p } }) ∧
    (∀ w, s.host.completions = [] → exec (.cplPop w) s = .next s) ∧
    (∀ w e es, s.host.completions = e :: es →
      exec (.cplPop w) s = .next { s with host := { s.host with completions := es, readPointer := 0 } }) ∧
    (∀ c, s.maint.mailbox = some c → exec .maintMailbox s = .next
      { s with host := { s.host with data := c }, maint := { s.maint with mailbox := none } }) ∧
    (s.maint.mailbox = none → exec .maintMailbox s = .next { s with host := { s.host with data := 0 } }) ∧
    ∀ r w, exec (.ignoredWrite r w) s = .next s

/-- INT_ENABLE and INT# (R160). -/
def Obligations.InterruptEnableAndRequest : Prop :=
  (∀ (s : State) (w : Word), ∃ t, exec (.intEnable w) s = .next t ∧
    t = { s with host := { s.host with enable := t.host.enable } } ∧
    (∀ k, k < 5 → t.host.enable.getLsbD k = w.getLsbD k ∧ (t.hostRead 6).getLsbD k = w.getLsbD k)) ∧
  (∀ s : State, s.intAsserted = true ↔
    ∃ k, k < 5 ∧ s.intStatus.getLsbD k = true ∧ s.host.enable.getLsbD k = true) ∧
  (∀ x : Straps, (State.powerOn x).host.enable = 0 ∧ (State.powerOn x).intAsserted = false) ∧
  ∀ (a : Addr) (rate : BitVec 2) (s : State), ∃ t, exec (.reset a rate) s = .next t ∧ t.host.enable = 0 ∧
    t.intAsserted = false

/-- What the host registers read, and which bits a write of INT_STATUS clears (R151, R156, R158, R159, R161). -/
def Obligations.HostRegistersAsTheyRead : Prop :=
  ∀ s : State,
    s.hostRead 0 = 0 ∧ s.hostRead 1 = 0 ∧ s.hostRead 3 = 0 ∧
    (s.host.completions = [] → s.hostRead 2 = 0) ∧
    (∀ e es, s.host.completions = e :: es → s.hostRead 2 = e[s.host.readPointer.val]) ∧
    (s.hostRead 4).extractLsb' 0 3 = BitVec.ofNat 3 s.host.commands.length ∧
    (s.hostRead 4).getLsbD 3 = s.host.executing ∧
    (s.hostRead 4).extractLsb' 4 4 = BitVec.ofNat 4 s.host.completions.length ∧
    (s.hostRead 4).extractLsb' 8 2 = (match s.port.state with | .offline => 0 | .joining => 1 | .online => 2) ∧
    ((s.hostRead 4).getLsbD 10 = true ↔ s.maint.mode = .service) ∧
    (s.hostRead 4).getLsbD 11 = s.maint.mailbox.isSome ∧ (s.hostRead 4).extractLsb' 12 4 = 0 ∧
    ((s.hostRead 5).getLsbD 0 = true ↔ s.host.completions ≠ []) ∧
    (s.hostRead 5).getLsbD 1 = s.host.sticky.freezeExpired ∧ (s.hostRead 5).getLsbD 2 = s.host.sticky.txFault ∧
    (s.hostRead 5).getLsbD 3 = s.host.sticky.attention ∧ (s.hostRead 5).getLsbD 4 = s.host.sticky.submitLost ∧
    (s.maint.mailbox = none → s.hostRead 7 = 0) ∧ (∀ c, s.maint.mailbox = some c → s.hostRead 7 = c) ∧
    ∀ w, ∃ t, exec (.intStatus w) s = .next t ∧
      t = { s with host := { s.host with sticky := t.host.sticky } } ∧
      (t.hostRead 5).getLsbD 0 = (s.hostRead 5).getLsbD 0 ∧
      ∀ k, 1 ≤ k → k < 5 → (t.hostRead 5).getLsbD k = ((s.hostRead 5).getLsbD k && !w.getLsbD k)

/-- When the head block is taken, what a command is by its kind number and word count and what a BAD_COMMAND is, where the
operands stand in a block (section 10.7), the outcome codes (R69), and the completion record of any command (R154 to
R156). That a command row without such a block changes nothing is the model's choice (log 4). -/
def Obligations.TakingAndCompletingACommand : Prop :=
  (∀ (s : State) (b : Block), s.takeable = some b ↔
    s.host.executing = false ∧ s.host.commands.head? = some b ∧
      s.host.completions.length + s.host.reserved +
        (if b.words.head?.any (fun w => w.extractLsb' 8 8 ∈ [(6 : Byte), 7, 16]) then 2 else 1) ≤ 8) ∧
  (∀ s : State, s.takeable = none → exec .badCommand s = .next s ∧ ∀ k : HostKind, exec k.row s = .next s) ∧
  (∀ (s : State) (b : Block), s.takeable = some b →
    (b.wrongCount = true ∨ b.named = none ∨ (∃ k, b.named = some k ∧ b.words.length ∉ k.wordCounts) →
      exec .badCommand s = .next (completeCommand b 1 .badCommand [] s))) ∧
  (∀ n : Byte, HostKind.ofNumber n = [none, some HostKind.create, some .retire, some .write, some .force,
    some .unforce, some .read, some .list, some .setZone, some .zoneStatus, some .freeze, some .thaw, some .setDevice,
    some .busStart, some .busStop, some .clearTable, some .counters, some .setMaintMode].getD n.toNat none) ∧
  (∀ k : HostKind, k.wordCounts =
    (match k with
      | .create => [4, 8]
      | .write | .force | .list => [8]
      | .retire | .unforce | .read => [3]
      | .setZone => [6]
      | .setDevice => [5]
      | .zoneStatus | .freeze | .thaw | .counters | .setMaintMode => [2]
      | .busStart | .busStop | .clearTable => [1])) ∧
  (∀ (b : Block) (k : HostKind), b.command = some k ↔
    b.wrongCount = false ∧ HostKind.ofNumber ((b.word 0).extractLsb' 8 8) = some k ∧
      b.words.length ∈ k.wordCounts) ∧
  (∀ b : Block, (∀ k, b.word k = b.words.getD k 0) ∧ b.tag = (b.word 1).extractLsb' 0 8 ++ b.word 2 ∧
    b.length = ((b.word 3).extractLsb' 8 8).toNat ∧ b.producer = ((b.word 3).extractLsb' 0 8).toNat ∧
    b.bytes.length = 8 ∧ ∀ k, k < 4 → b.bytes[2 * k]? = some ((b.word (4 + k)).extractLsb' 8 8) ∧
      b.bytes[2 * k + 1]? = some ((b.word (4 + k)).extractLsb' 0 8)) ∧
  ([OutcomeCode.ok, .created, .deferred, .duplicate, .old].map (·.number) = [0, 1, 2, 3, 4] ∧
    [OutcomeCode.badTag, .noZone, .noRecord, .alreadyExists, .notOwner, .badLength, .quota, .tableFull, .zoneFrozen,
      .deferFull, .poolEmpty, .listFull, .notForced, .alreadyFrozen, .notFrozen, .quotaTooLow, .zoneInUse,
      .busActive, .badArgument, .badCommand].map (·.number) = ((List.range 20).map fun n => BitVec.ofNat 8 (16 + n)) ∧
    [OutcomeCode.notPermitted, .staleRef, .busy].map (·.number) = [48, 49, 50]) ∧
  ∀ (s : State) (b : Block) (n : Nat) (c : OutcomeCode) (ws : List Word), n = 1 ∨ n = 2 →
    ∃ es : List (Vector Word 8), es.length = n ∧
      completeCommand b n c ws s =
        { s with host := { s.host with
          commands := s.host.commands.tail
          executing := false
          reserved := 0
          completions := s.host.completions ++ es
          readPointer := if s.host.completions = [] then 0 else s.host.readPointer } } ∧
      ∀ j k (hk : k < 8), ∀ e, es[j]? = some e → e[k] =
        if 8 * j + k = 0 then b.word 0
        else if 8 * j + k = 1 then BitVec.ofNat 8 n ++ c.number
        else ws.getD (8 * j + k - 2) 0

/-- CREATE: the refusals in the order of the checks, and the record a passed CREATE makes in the head slot (R14 to R16,
R61, R162). -/
def Obligations.CreateFillsTheHeadSlot : Prop :=
  ∀ (s : State) (b : Block), s.canTake .create b →
    let refused := fun c => exec .create s = .next (completeCommand b 1 c [] s)
    let x := s.zone (zoneOf b.tag)
    (b.length = 0 ∨ 8 < b.length ∨ 62 < b.producer → refused .badArgument) ∧
    (1 ≤ b.length → b.length ≤ 8 → b.producer ≤ 62 →
      (b.tag = 0 → refused .badTag) ∧
      (b.tag ≠ 0 → x.status = .disabled → refused .noZone) ∧
      (b.tag ≠ 0 → x.status = .active → (s.lookup b.tag).isSome = true → refused .alreadyExists) ∧
      (b.tag ≠ 0 → x.status = .active → s.lookup b.tag = none →
        (x.freeze ≠ none → refused .zoneFrozen) ∧
        (x.freeze = none → x.quota ≤ x.count → refused .quota) ∧
        (x.freeze = none → x.count < x.quota → s.freeQueue = [] → refused .tableFull) ∧
        (x.freeze = none → x.count < x.quota → ∀ i rest, s.freeQueue = i :: rest →
          ∃ u, exec .create s = .next
              (completeCommand b 1 .ok [BitVec.ofNat 16 i.val, (s.incarnation i).setWidth 16] u) ∧
            Created i
              ⟨.live, b.tag, if b.producer = 0 then .host else .node (BitVec.ofNat 6 b.producer), b.length,
                if b.words.length = 8 then some (b.bytes.take b.length) else none, none, none, 0, s.timeBase,
                if b.producer = 0 ∨ x.lease = 0 then none else some (s.timeBase + 10 * x.lease), none, .noStep, []⟩
              s u)))

/-- RETIRE, WRITE, FORCE, UNFORCE and READ of a tag that names no record (R39, R62 to R65, R163). -/
def Obligations.RecordCommandsOnAnAbsentRecord : Prop :=
  ∀ (s : State) (b : Block) (k : HostKind), k ∈ [HostKind.retire, .write, .force, .unforce, .read] →
    s.canTake k b →
    let refused := fun c => exec k.row s = .next (completeCommand b (if k = .read then 2 else 1) c [] s)
    (b.tag = 0 → refused .badTag) ∧
    (b.tag ≠ 0 → (s.zone (zoneOf b.tag)).status = .disabled → refused .noZone) ∧
    (b.tag ≠ 0 → (s.zone (zoneOf b.tag)).status = .active → s.lookup b.tag = none → refused .noRecord)

/-- RETIRE, WRITE, FORCE and UNFORCE of a record: the rest of their checks, and what each does (R17, R58, R59, R62 to
R65, R162). -/
def Obligations.RecordCommandsOnARecord : Prop :=
  ∀ (s : State) (b : Block) (i : SlotIx) (r : Record), s.Finds b.tag i r → r.tag = b.tag →
    let frozen := (s.zone (zoneOf b.tag)).freeze ≠ none
    let refused := fun (k : HostKind) c => exec k.row s = .next (completeCommand b 1 c [] s)
    (s.canTake .retire b → (frozen → refused .retire .zoneFrozen) ∧
      (¬ frozen → ∃ u, exec .retire s = .next (completeCommand b 1 .ok [] u) ∧ Retired i r s u)) ∧
    (s.canTake .write b → (r.producer ≠ .host → refused .write .notOwner) ∧
      (r.producer = .host → b.length ≠ r.length → refused .write .badLength) ∧
      (r.producer = .host → b.length = r.length → frozen → refused .write .zoneFrozen) ∧
      (r.producer = .host → b.length = r.length → ¬ frozen →
        ∃ u, exec .write s = .next (completeCommand b 1 .ok [] u) ∧
          Becomes i r
            { r with
              state := .live
              processValue := some (b.bytes.take b.length)
              lastUpdate := s.timeBase
              graceDeadline := if r.state = .stale then none else r.graceDeadline } s u)) ∧
    (s.canTake .force b → (b.length ≠ r.length → refused .force .badLength) ∧
      (b.length = r.length → frozen → refused .force .zoneFrozen) ∧
      (b.length = r.length → ¬ frozen →
        ∃ u, exec .force s = .next (completeCommand b 1 .ok [] u) ∧
          Becomes i r { r with forcedValue := some (b.bytes.take b.length) } s u)) ∧
    (s.canTake .unforce b → (r.forcedValue = none → refused .unforce .notForced) ∧
      (r.forcedValue ≠ none → frozen → refused .unforce .zoneFrozen) ∧
      (r.forcedValue ≠ none → ¬ frozen →
        ∃ u, exec .unforce s = .next (completeCommand b 1 .ok [] u) ∧
          VisiblyChanged i { r with forcedValue := none } s u))

/-- The visible quality and value of a record, by the first line of the table that applies (R7). -/
def Obligations.VisibleImageOfARecord : Prop :=
  ∀ r : Record,
    (∀ v, r.forcedValue = some v → r.quality = .forced ∧ r.visibleValue = some v) ∧
    (r.forcedValue = none →
      (r.state = .stale → r.quality = .stale ∧ r.visibleValue = r.processValue) ∧
      (r.state = .live → r.processValue = none → r.quality = .unset ∧ r.visibleValue = none) ∧
      (r.state = .live → ∀ v, r.processValue = some v → r.quality = .good ∧ r.visibleValue = some v)) ∧
    (r.quality = .forced ↔ r.forcedValue ≠ none)

/-- READ reports the record as it stands and changes nothing but its completion (R6, R83, R163). That bits 2 to 0 of the
first word are 0, and which byte of a value's pair stands in the upper half of its word, are the model's choice (logs 24,
25). -/
def Obligations.ReadReportsTheRecord : Prop :=
  (∀ (v : List Byte) (k : Nat), byteAt (some v) k = v.getD k 0 ∧ byteAt none k = 0) ∧
  ∀ (s : State) (b : Block) (i : SlotIx) (r : Record), s.canTake .read b → s.Finds b.tag i r →
    ∃ w age left : Word,
      exec .read s = .next (completeCommand b 2 .ok
        ([w, (match r.producer with | .host => 0#8 | .node a => a.setWidth 8) ++ BitVec.ofNat 8 r.length,
          r.lastSequence.getD 0 ++ s.incarnation i, r.revision, age, left] ++
          [byteAt r.processValue 0 ++ byteAt r.processValue 1, byteAt r.processValue 2 ++ byteAt r.processValue 3,
            byteAt r.processValue 4 ++ byteAt r.processValue 5, byteAt r.processValue 6 ++ byteAt r.processValue 7,
            byteAt r.forcedValue 0 ++ byteAt r.forcedValue 1, byteAt r.forcedValue 2 ++ byteAt r.forcedValue 3,
            byteAt r.forcedValue 4 ++ byteAt r.forcedValue 5, byteAt r.forcedValue 6 ++ byteAt r.forcedValue 7]) s) ∧
      w.extractLsb' 14 2 = (if r.state = .live then 1 else 2) ∧
      w.extractLsb' 11 3 = (match r.quality with | .good => 0 | .unset => 1 | .stale => 2 | _ => 3) ∧
      w.extractLsb' 9 2 = (match r.pendingAge with | .noStep => 0 | .expire => 1 | .retire => 2) ∧
      w.getLsbD 8 = r.processValue.isSome ∧ w.getLsbD 7 = r.forcedValue.isSome ∧
      w.getLsbD 6 = r.lastSequence.isSome ∧ w.extractLsb' 3 3 = BitVec.ofNat 3 r.subscribers.length ∧
      w.extractLsb' 0 3 = 0 ∧
      age.toNat = min 65535 ((s.timeBase - r.lastUpdate) / 10) ∧
      (r.leaseDeadline = none → left = 65535) ∧
      ∀ d, r.leaseDeadline = some d → d ≤ s.timeBase + 60000 →
        10 * left.toNat < (d - s.timeBase) + 10 ∧ d - s.timeBase ≤ 10 * left.toNat

/-- LIST reports the tags of a walk, their number, and MORE or END (R33, R164). That bits 15 to 10 of the first word are 0,
and how a tag stands in its two words, are the model's choice (logs 24, 25). -/
def Obligations.ListReportsTheWalk : Prop :=
  ∀ (s : State) (b : Block), s.canTake .list b →
    ((b.word 7).toNat = 0 ∨ 6 < (b.word 7).toNat →
      exec .list s = .next (completeCommand b 2 .badArgument [] s)) ∧
    (1 ≤ (b.word 7).toNat → (b.word 7).toNat ≤ 6 → ∀ es more,
      s.walk b.tag ((b.word 3).extractLsb' 0 8 ++ b.word 4) ((b.word 5).extractLsb' 0 8 ++ b.word 6)
        (b.word 7).toNat = (es, more) →
      ∃ w : Word, exec .list s = .next (completeCommand b 2 .ok
          (w :: es.flatMap fun e => [(e.tag.extractLsb' 16 8).setWidth 16, e.tag.extractLsb' 0 16]) s) ∧
        w.toNat = es.length + (if more then 256 else 512))

/-- SET_ZONE: its checks in order, and the five settings it writes (R47, R48, R165). -/
def Obligations.SetZoneChecksAndWrites : Prop :=
  ∀ (s : State) (b : Block), s.canTake .setZone b →
    let refused := fun c => exec .setZone s = .next (completeCommand b 1 c [] s)
    let st := (b.word 2).extractLsb' 8 8
    let ad := (b.word 2).extractLsb' 0 8
    let q := (b.word 3).toNat
    let l := (b.word 4).toNat
    let g := (b.word 5).toNat
    (15 < (b.word 1).toNat ∨ 1 < st.toNat ∨ 1 < ad.toNat ∨ 512 < q ∨ 6000 < l ∨ 6000 < g → refused .badArgument) ∧
    ∀ z : ZoneIx, (b.word 1).toNat = z.val → st.toNat ≤ 1 → ad.toNat ≤ 1 → q ≤ 512 → l ≤ 6000 → g ≤ 6000 →
      let x := s.zone z
      let sum := ((List.finRange 16).map fun y =>
        if y = z then (if st = 1 then q else 0)
        else if (s.zone y).status = .active then (s.zone y).quota else 0).sum
      (st = 0 → 0 < x.count → refused .zoneInUse) ∧
      ((st = 1 ∨ x.count = 0) → q < x.count → refused .quotaTooLow) ∧
      ((st = 1 ∨ x.count = 0) → x.count ≤ q → 512 < sum → refused .quota) ∧
      ((st = 1 ∨ x.count = 0) → x.count ≤ q → sum ≤ 512 → x.freeze ≠ none → refused .zoneFrozen) ∧
      ((st = 1 ∨ x.count = 0) → x.count ≤ q → sum ≤ 512 → x.freeze = none →
        exec .setZone s = .next (completeCommand b 1 .ok []
          (s.setZone z
            { x with
              status := if st = 1 then .active else .disabled
              admission := if ad = 1 then .opened else .closed
              quota := q
              lease := l
              grace := g })))

/-- ZONE_STATUS and FREEZE (R50, R85, R87, R165); and THAW of a zone that is not frozen (R86). That bit 7 of the first
status word is 0 is the model's choice (log 24). -/
def Obligations.ZoneStatusAndFreeze : Prop :=
  ∀ (s : State) (b : Block),
    (15 < (b.word 1).toNat →
      (s.canTake .zoneStatus b → exec .zoneStatus s = .next (completeCommand b 1 .badArgument [] s)) ∧
      (s.canTake .freeze b → exec .freeze s = .next (completeCommand b 1 .badArgument [] s)) ∧
      (s.canTake .thaw b → exec .thaw s = .next (completeCommand b 1 .badArgument [] s))) ∧
    ∀ z : ZoneIx, (b.word 1).toNat = z.val →
      let x := s.zone z
      (s.canTake .zoneStatus b → ∃ w : Word,
        exec .zoneStatus s = .next (completeCommand b 1 .ok
          [w, BitVec.ofNat 16 x.quota, BitVec.ofNat 16 x.count, BitVec.ofNat 16 x.lease, BitVec.ofNat 16 x.grace,
            x.changeCount] s) ∧
        (w.extractLsb' 0 4).toNat = z.val ∧ (w.getLsbD 4 = true ↔ x.status = .active) ∧
        (w.getLsbD 5 = true ↔ x.admission = .opened) ∧ w.getLsbD 6 = x.freeze.isSome ∧ w.getLsbD 7 = false ∧
        (x.freeze = none → w.extractLsb' 8 8 = 0) ∧
        ∀ d, x.freeze = some d → d ≤ s.timeBase + 2550 →
          10 * (w.extractLsb' 8 8).toNat < (d - s.timeBase) + 10 ∧ d - s.timeBase ≤ 10 * (w.extractLsb' 8 8).toNat) ∧
      (s.canTake .freeze b →
        (x.status = .disabled → exec .freeze s = .next (completeCommand b 1 .noZone [] s)) ∧
        (x.status = .active → x.freeze ≠ none →
          exec .freeze s = .next (completeCommand b 1 .alreadyFrozen [] s)) ∧
        (x.status = .active → x.freeze = none →
          exec .freeze s = .next (completeCommand b 1 .ok []
            (s.setZone z { x with freeze := some (s.timeBase + 10 * s.settings.freezeLimit) })))) ∧
      (s.canTake .thaw b → x.freeze = none → exec .thaw s = .next (completeCommand b 1 .notFrozen [] s))

/-- SET_DEVICE and SET_MAINT_MODE (R167, R171). -/
def Obligations.SettingsAndMaintenanceMode : Prop :=
  ∀ (s : State) (b : Block),
    (s.canTake .setDevice b →
      let code := fun x : BitRate => (match x with
        | .kbit125 => 0 | .kbit250 => 1 | .kbit500 => 2 | .kbit1000 => 3 : Word)
      let report := fun x : Settings => [x.ownAddress.setWidth 16, code x.bitRate,
        BitVec.ofNat 16 x.answerLifetime, BitVec.ofNat 16 x.freezeLimit]
      let a := (b.word 1).toNat
      let t := (b.word 3).toNat
      let l := (b.word 4).toNat
      (a = 0 ∨ 62 < a ∨ 3 < (b.word 2).toNat ∨ t = 0 ∨ 255 < t ∨ l = 0 ∨ 255 < l →
        exec .setDevice s = .next (completeCommand b 1 .badArgument (report s.settings) s)) ∧
      ∀ rate, b.word 2 = code rate → 1 ≤ a → a ≤ 62 → 1 ≤ t → t ≤ 255 → 1 ≤ l → l ≤ 255 →
        (s.port.state ≠ .offline →
          exec .setDevice s = .next (completeCommand b 1 .busActive (report s.settings) s)) ∧
        (s.port.state = .offline → ∃ x : Settings, x = ⟨BitVec.ofNat 6 a, rate, t, l⟩ ∧
          exec .setDevice s = .next (completeCommand b 1 .ok (report x) { s with settings := x }))) ∧
    (s.canTake .setMaintMode b →
      let code := fun x : MaintMode => (match x with | .observe => 0 | .service => 1 : Word)
      (1 < (b.word 1).toNat → exec .setMaintMode s = .next (completeCommand b 1 .badArgument [] s)) ∧
      ∀ m, b.word 1 = code m → exec .setMaintMode s = .next (completeCommand b 1 .ok [code s.maint.mode]
        { s with maint := { s.maint with mode := m } }))

/-- CLEAR_TABLE frees every record in silence, thaws every zone, empties the queues that hold work on records, and keeps
the rest (R19, R20, R38, R102, R148). -/
def Obligations.ClearTableEmptiesTheImage : Prop :=
  ∀ (s : State) (b : Block), s.canTake .clearTable b → ∃ u : State,
    exec .clearTable s = .next (completeCommand b 1 .ok [] u) ∧
    (∀ i, u.slot i = ⟨if (s.record i).isSome then s.incarnation i + 1 else s.incarnation i, none⟩) ∧
    (∀ z, u.zone z = { s.zone z with
      count := 0
      freeze := none
      changeCount := if (s.zone z).count = 0 then (s.zone z).changeCount else (s.zone z).changeCount + 1 }) ∧
    u = { s with
      slots := u.slots
      zones := u.zones
      freeQueue := List.finRange 512
      directory := []
      poolFree := 256
      deferred := []
      answers := s.answers.filter fun a => !a.isNotify || a.started }

/-- COUNTERS (R170). -/
def Obligations.CountersAreReportedAndCleared : Prop :=
  ∀ (s : State) (b : Block), s.canTake .counters b →
    let c := s.counters
    let report := [c.rxGood, c.rxBad, c.refused, c.oldSeq, c.queryDropped, c.answerExpired, c.notifyMissed,
      c.txFaults, c.superseded]
    (b.word 1 = 0 → exec .counters s = .next (completeCommand b 2 .ok report s)) ∧
    (b.word 1 = 1 → exec .counters s = .next (completeCommand b 2 .ok report
      { s with counters := ⟨0, 0, 0, 0, 0, 0, 0, 0, 0⟩ })) ∧
    (b.word 1 ≠ 0 → b.word 1 ≠ 1 → exec .counters s = .next (completeCommand b 2 .badArgument [] s))

/-! ## The maintenance port -/

/-- MCLK_RISING_EDGE, ALIGNMENT_RECOVERY and FRAME_TIMEOUT; a timeout that is due comes before an edge; an edge that samples
the 48th bit takes the frame end; and the rows of frames are their 48 edges (R172, R173, R183, R184). The fall of MCLK as
an operand, the level on MDO, the recovery row as an edge, the rows as 48 edges and a timeout that is not due are the
model's choice (logs 2, 4, 13, 17). -/
def Obligations.EdgesRecoveriesAndTimeouts : Prop :=
  ∀ s : State,
    let restarted := fun m : Maint =>
      { m with position := 0, shift := 0, onesCount := 0, output := BitVec.allOnes 48, poke := .idle }
    let due := 0 < s.maint.position ∧ s.maint.lastEdge + 2 ≤ s.timeBase
    let shown := if s.maint.mclk then s.maint.output.getMsbD s.maint.position else s.maint.mdo
    (due → exec .frameTimeout s = .next { s with maint := restarted s.maint } ∧
      ∀ e, exec (.mclkRisingEdge e) s = exec (.mclkRisingEdge e) { s with maint := restarted s.maint }) ∧
    (¬ due → exec .frameTimeout s = .next s) ∧
    exec .alignmentRecovery s = exec (.mclkRisingEdge ⟨true, true⟩) s ∧
    (∀ falls : Bool, ¬ due → 63 ≤ s.maint.onesCount →
      exec (.mclkRisingEdge ⟨true, falls⟩) s = .next
        { s with maint := { restarted s.maint with
          lastEdge := s.timeBase, mclk := !falls, mdo := if falls then true else shown } }) ∧
    (∀ b falls : Bool, ¬ due → (b = false ∨ s.maint.onesCount < 63) →
      let ones := if b then s.maint.onesCount + 1 else 0
      ∃ x : MaintFrame, x.getLsbD 0 = b ∧ (∀ k, 1 ≤ k → k < 48 → x.getLsbD k = s.maint.shift.getLsbD (k - 1)) ∧
        (s.maint.position < 47 → exec (.mclkRisingEdge ⟨b, falls⟩) s = .next
          { s with maint := { s.maint with
            position := s.maint.position + 1
            shift := x
            onesCount := ones
            lastEdge := s.timeBase
            mclk := !falls
            mdo := if falls then s.maint.output.getMsbD (s.maint.position + 1) else shown } }) ∧
        (s.maint.position = 47 →
          ∃ t, exec (.pokeDataFrame x)
              { s with maint := { s.maint with position := 0, shift := 0, onesCount := 0 } } = .next t ∧
            exec (.mclkRisingEdge ⟨b, falls⟩) s = .next
              { t with maint := { t.maint with
                onesCount := ones, mclk := !falls, mdo := if falls then t.maint.mdo else shown } })) ∧
    (∀ f, ∃ u : Nat → State, u 0 = s ∧
      (∀ i, i < 48 → exec (.mclkRisingEdge ⟨f.getMsbD i, true⟩) (u i) = .next (u (i + 1))) ∧
      exec (.pokeDataFrame f) s = .next (u 48)) ∧
    (∀ rest, exec (.noRequest rest) s = exec (.pokeDataFrame (0xFF#8 ++ rest)) s) ∧
    (∀ code rest, exec (.unknownRequestCode code rest) s = exec (.pokeDataFrame (code ++ rest)) s) ∧
    (∀ rest, exec (.nop rest) s = exec (.pokeDataFrame (0#8 ++ rest)) s) ∧
    (∀ a b c d, exec (.peek a b c d) s = exec (.pokeDataFrame (1#8 ++ a ++ b ++ c ++ d)) s) ∧
    (∀ a rest, exec (.peekZone a rest) s = exec (.pokeDataFrame (2#8 ++ a ++ rest)) s) ∧
    (∀ a b rest, exec (.watch a b rest) s = exec (.pokeDataFrame (3#8 ++ a ++ b ++ rest)) s) ∧
    (∀ a rest, exec (.attention a rest) s = exec (.pokeDataFrame (4#8 ++ a ++ rest)) s) ∧
    (∀ a b c d, exec (.poke a b c d) s = exec (.pokeDataFrame (5#8 ++ a ++ b ++ c ++ d)) s) ∧
    ∀ f, exec (.pokeReadBack f) s = exec (.pokeDataFrame f) s ∧ exec (.pokeEnd f) s = exec (.pokeDataFrame f) s

/-- The frames of the requests that are answered within their own frame end, but for the PEEKs (R174, R175, R178). The
row as 48 edges, the level on MDO, and that WATCH follows R175 where R66 says more, are the model's choice (logs 13, 17,
26). -/
def Obligations.RequestsAnsweredAtTheirFrameEnd : Prop :=
  ∀ s : State, s.maint.position = 0 → s.maint.poke = .idle →
    let answer := fun (code : Byte) (rest : BitVec 40) (c : OutcomeCode) (d : BitVec 32) =>
      s.tookFrame (code ++ rest) (c.number ++ code ++ d) .idle
    (∀ rest, s.aligned (0xFF#8 ++ rest) →
      exec (.noRequest rest) s = .next (s.tookFrame (0xFF#8 ++ rest) (BitVec.allOnes 48) .idle)) ∧
    (∀ code rest, code ∉ [0, 1, 2, 3, 4, 5, 0xFF] → s.aligned (code ++ rest) →
      exec (.unknownRequestCode code rest) s = .next (answer code rest .badArgument 0)) ∧
    (∀ rest, exec (.nop rest) s = .next (answer 0 rest .ok 0)) ∧
    (∀ slotBits rest, exec (.watch slotBits 0 rest) s = .next
      (answer 3 (slotBits ++ 0#8 ++ rest) .ok (s.lastTouched.revision.extractLsb' 0 8 ++ s.lastTouched.tag))) ∧
    (∀ slotBits rest, exec (.watch slotBits 1 rest) s = .next
      (answer 3 (slotBits ++ 1#8 ++ rest) .ok
        (s.lastTouched.revision.extractLsb' 0 8 ++ 0#8 ++ BitVec.ofNat 16 s.lastTouched.slot.val))) ∧
    (∀ slotBits field rest, 1 < field.toNat → exec (.watch slotBits field rest) s = .next
      (answer 3 (slotBits ++ field ++ rest) .badArgument 0)) ∧
    (∀ code rest, s.maint.mailbox = none → exec (.attention code rest) s = .next
      (let u := answer 4 (code ++ rest) .ok 0
       { u with
        maint := { u.maint with mailbox := some code }
        host := { s.host with sticky := { s.host.sticky with attention := true } } })) ∧
    ∀ code rest c, s.maint.mailbox = some c → exec (.attention code rest) s = .next
      (answer 4 (code ++ rest) .busy 0)

/-- PEEK_ZONE (R177). The row as 48 edges, the level on MDO, and that bits 31 to 28 of the data are 0, are the model's
choice (logs 13, 17, 24). -/
def Obligations.PeekZoneReportsTheEntry : Prop :=
  ∀ (s : State) (zone : Word) (rest : BitVec 24), s.maint.position = 0 → s.maint.poke = .idle →
    (15 < zone.toNat → exec (.peekZone zone rest) s = .next
      (s.tookFrame (2#8 ++ zone ++ rest) (OutcomeCode.badArgument.number ++ 2#8 ++ 0#32) .idle)) ∧
    ∀ z : ZoneIx, zone.toNat = z.val → ∃ d : BitVec 32, exec (.peekZone zone rest) s = .next
        (s.tookFrame (2#8 ++ zone ++ rest) (OutcomeCode.ok.number ++ 2#8 ++ d) .idle) ∧
      d.extractLsb' 28 4 = 0 ∧ (d.getLsbD 27 = true ↔ (s.zone z).status = .active) ∧
      (d.getLsbD 26 = true ↔ (s.zone z).admission = .opened) ∧
      d.extractLsb' 16 10 = BitVec.ofNat 10 (s.zone z).count ∧ d.extractLsb' 0 16 = (s.zone z).changeCount

/-- PEEK: its checks, and the field groups of a slot (R83, R176). The row as 48 edges and the level on MDO are the model's
choice (logs 13, 17). -/
def Obligations.PeekReportsAFieldGroup : Prop :=
  ∀ (s : State) (slot : Word) (field inc spare : Byte), s.maint.position = 0 → s.maint.poke = .idle →
    let answer := fun (c : OutcomeCode) (d : BitVec 32) => exec (.peek slot field inc spare) s = .next
      (s.tookFrame (1#8 ++ slot ++ field ++ inc ++ spare) (c.number ++ 1#8 ++ d) .idle)
    let four := fun (v : Option (List Byte)) k => byteAt v k ++ byteAt v (k + 1) ++ byteAt v (k + 2) ++ byteAt v (k + 3)
    (511 < slot.toNat ∨ 8 < field.toNat → answer .badArgument 0) ∧
    ∀ i : SlotIx, slot.toNat = i.val → field.toNat ≤ 8 →
      (s.record i = none → (field = 1 → answer .noRecord (0#24 ++ s.incarnation i)) ∧
        (field ≠ 1 → answer .noRecord 0)) ∧
      ∀ r, s.record i = some r →
        (field = 0 → answer .ok (0#6 ++ (if r.state = .live then 1#2 else 2#2) ++ r.tag)) ∧
        (field = 1 → answer .ok
          (0#6 ++ (match r.pendingAge with | .noStep => 0#2 | .expire => 1#2 | .retire => 2#2) ++ 0#1 ++
            (match r.quality with | .good => 0#3 | .unset => 1#3 | .stale => 2#3 | _ => 3#3) ++
            BitVec.ofNat 4 r.length ++ (match r.producer with | .host => 0#8 | .node a => a.setWidth 8) ++
            s.incarnation i)) ∧
        (field = 2 → answer .ok (four r.processValue 0)) ∧ (field = 3 → answer .ok (four r.processValue 4)) ∧
        (field = 4 → answer .ok (four r.forcedValue 0)) ∧ (field = 5 → answer .ok (four r.forcedValue 4)) ∧
        (field = 6 → answer .ok
          (0#5 ++ BitVec.ofBool r.forcedValue.isSome ++ BitVec.ofBool r.processValue.isSome ++
            BitVec.ofBool r.lastSequence.isSome ++ r.lastSequence.getD 0 ++ r.revision)) ∧
        (field = 7 → answer .ok (r.age s.timeBase ++ r.leaseRemaining s.timeBase)) ∧
        (field = 8 → ∃ d : BitVec 32, answer .ok d ∧ ∀ k, k < 4 → d.extractLsb' (24 - 8 * k) 8 =
          (r.subscribers[k]?.elim 0#8 fun x => x.node.setWidth 8))

/-- The four frames of a POKE: the header, the decision with its checks in order and the patch, the read-back, the end
(R58, R59, R179 to R181). The rows as 48 edges and the level on MDO are the model's choice (logs 13, 17). -/
def Obligations.PokeTakesFourFrames : Prop :=
  ∀ s : State,
    (∀ slot field inc spare, s.maint.position = 0 → s.maint.poke = .idle →
      exec (.poke slot field inc spare) s = .next (s.tookFrame (5#8 ++ slot ++ field ++ inc ++ spare)
        (OutcomeCode.ok.number ++ 5#8 ++ (inc ++ field ++ slot)) (.awaitData slot field inc))) ∧
    (∀ f slot field inc, s.maint.poke = .awaitData slot field inc → s.aligned f →
      let base := if field = 3 then 4 else 0
      let refused := fun c => exec (.pokeDataFrame f) s = .next
        (s.tookFrame f (c.number ++ 5#8 ++ 0#32) (.decided slot field inc (some c)))
      (511 < slot.toNat ∨ (field ≠ 2 ∧ field ≠ 3) → refused .badArgument) ∧
      ∀ i : SlotIx, slot.toNat = i.val → field = 2 ∨ field = 3 →
        (s.maint.mode = .observe → refused .notPermitted) ∧
        (s.maint.mode = .service → s.record i = none → refused .noRecord) ∧
        (s.maint.mode = .service → ∀ r, s.record i = some r →
          (s.incarnation i ≠ inc → refused .staleRef) ∧
          (s.incarnation i = inc → (s.zone (zoneOf r.tag)).freeze ≠ none → refused .zoneFrozen) ∧
          (s.incarnation i = inc → (s.zone (zoneOf r.tag)).freeze = none → field = 3 → r.length ≤ 4 →
            refused .badArgument) ∧
          (s.incarnation i = inc → (s.zone (zoneOf r.tag)).freeze = none → ¬ (field = 3 ∧ r.length ≤ 4) →
            ∃ (u : State) (v : List Byte), exec (.pokeDataFrame f) s = .next u ∧ v.length = r.length ∧
              (∀ k, k < r.length → v[k]? = some (if base ≤ k ∧ k < base + 4 then
                f.extractLsb' (24 - 8 * (k - base)) 8 else byteAt r.processValue k)) ∧
              Becomes i r
                { r with
                  state := .live
                  processValue := some v
                  lastUpdate := s.timeBase
                  graceDeadline := if r.state = .stale then none else r.graceDeadline }
                (s.tookFrame f
                  (OutcomeCode.ok.number ++ 5#8 ++ (byteAt r.processValue base ++ byteAt r.processValue (base + 1) ++
                    byteAt r.processValue (base + 2) ++ byteAt r.processValue (base + 3)))
                  (.decided slot field inc none)) u))) ∧
    (∀ f slot field inc refusal, s.maint.poke = .decided slot field inc refusal → s.aligned f →
      let readBack := fun (c : OutcomeCode) (d : BitVec 32) => exec (.pokeReadBack f) s = .next
        (s.tookFrame f (c.number ++ 5#8 ++ d) .readBack)
      let base := if field = 3 then 4 else 0
      (∀ c, refusal = some c → readBack c 0) ∧
      (refusal = none → ∀ i : SlotIx, slot.toNat = i.val →
        (s.record i = none → readBack .noRecord 0) ∧
        ∀ r, s.record i = some r → (s.incarnation i ≠ inc → readBack .staleRef 0) ∧
          (s.incarnation i = inc → readBack .ok
            (byteAt r.processValue base ++ byteAt r.processValue (base + 1) ++ byteAt r.processValue (base + 2) ++
              byteAt r.processValue (base + 3))))) ∧
    (∀ f, s.maint.poke = .readBack → s.aligned f →
      exec (.pokeEnd f) s = .next (s.tookFrame f (BitVec.allOnes 48) .idle)) ∧
    (s.mrdyHigh = true ↔ s.maint.poke = .idle)
end

