-- ==== Sys2Proof/Laws/State.lean ====
section
/-! SUPPORT. One lemma per field and update of `State`, and the slots, records and zones after an update. -/

namespace Sys2Proof.Machine

variable (s : State)

@[simp] theorem State.withSlots_slots (x : Vector Slot 512) : (s.withSlots x).slots = x := rfl
@[simp] theorem State.withSlots_freeQueue (x : Vector Slot 512) : (s.withSlots x).freeQueue = s.freeQueue := rfl
@[simp] theorem State.withSlots_lastTouched (x : Vector Slot 512) : (s.withSlots x).lastTouched = s.lastTouched := rfl
@[simp] theorem State.withSlots_directory (x : Vector Slot 512) : (s.withSlots x).directory = s.directory := rfl
@[simp] theorem State.withSlots_zones (x : Vector Slot 512) : (s.withSlots x).zones = s.zones := rfl
@[simp] theorem State.withSlots_timeBase (x : Vector Slot 512) : (s.withSlots x).timeBase = s.timeBase := rfl
@[simp] theorem State.withSlots_deferred (x : Vector Slot 512) : (s.withSlots x).deferred = s.deferred := rfl
@[simp] theorem State.withSlots_poolFree (x : Vector Slot 512) : (s.withSlots x).poolFree = s.poolFree := rfl
@[simp] theorem State.withSlots_port (x : Vector Slot 512) : (s.withSlots x).port = s.port := rfl
@[simp] theorem State.withSlots_answers (x : Vector Slot 512) : (s.withSlots x).answers = s.answers := rfl
@[simp] theorem State.withSlots_transmitter (x : Vector Slot 512) : (s.withSlots x).transmitter = s.transmitter := rfl
@[simp] theorem State.withSlots_host (x : Vector Slot 512) : (s.withSlots x).host = s.host := rfl
@[simp] theorem State.withSlots_settings (x : Vector Slot 512) : (s.withSlots x).settings = s.settings := rfl
@[simp] theorem State.withSlots_counters (x : Vector Slot 512) : (s.withSlots x).counters = s.counters := rfl
@[simp] theorem State.withSlots_maint (x : Vector Slot 512) : (s.withSlots x).maint = s.maint := rfl
@[simp] theorem State.withSlots_straps (x : Vector Slot 512) : (s.withSlots x).straps = s.straps := rfl
@[simp] theorem State.withSlots_choices (x : Vector Slot 512) : (s.withSlots x).choices = s.choices := rfl
@[simp] theorem State.withSlots_pending (x : Vector Slot 512) : (s.withSlots x).pending = s.pending := rfl

@[simp] theorem State.withFreeQueue_slots (x : List SlotIx) : (s.withFreeQueue x).slots = s.slots := rfl
@[simp] theorem State.withFreeQueue_freeQueue (x : List SlotIx) : (s.withFreeQueue x).freeQueue = x := rfl
@[simp] theorem State.withFreeQueue_lastTouched (x : List SlotIx) : (s.withFreeQueue x).lastTouched = s.lastTouched := rfl
@[simp] theorem State.withFreeQueue_directory (x : List SlotIx) : (s.withFreeQueue x).directory = s.directory := rfl
@[simp] theorem State.withFreeQueue_zones (x : List SlotIx) : (s.withFreeQueue x).zones = s.zones := rfl
@[simp] theorem State.withFreeQueue_timeBase (x : List SlotIx) : (s.withFreeQueue x).timeBase = s.timeBase := rfl
@[simp] theorem State.withFreeQueue_deferred (x : List SlotIx) : (s.withFreeQueue x).deferred = s.deferred := rfl
@[simp] theorem State.withFreeQueue_poolFree (x : List SlotIx) : (s.withFreeQueue x).poolFree = s.poolFree := rfl
@[simp] theorem State.withFreeQueue_port (x : List SlotIx) : (s.withFreeQueue x).port = s.port := rfl
@[simp] theorem State.withFreeQueue_answers (x : List SlotIx) : (s.withFreeQueue x).answers = s.answers := rfl
@[simp] theorem State.withFreeQueue_transmitter (x : List SlotIx) : (s.withFreeQueue x).transmitter = s.transmitter := rfl
@[simp] theorem State.withFreeQueue_host (x : List SlotIx) : (s.withFreeQueue x).host = s.host := rfl
@[simp] theorem State.withFreeQueue_settings (x : List SlotIx) : (s.withFreeQueue x).settings = s.settings := rfl
@[simp] theorem State.withFreeQueue_counters (x : List SlotIx) : (s.withFreeQueue x).counters = s.counters := rfl
@[simp] theorem State.withFreeQueue_maint (x : List SlotIx) : (s.withFreeQueue x).maint = s.maint := rfl
@[simp] theorem State.withFreeQueue_straps (x : List SlotIx) : (s.withFreeQueue x).straps = s.straps := rfl
@[simp] theorem State.withFreeQueue_choices (x : List SlotIx) : (s.withFreeQueue x).choices = s.choices := rfl
@[simp] theorem State.withFreeQueue_pending (x : List SlotIx) : (s.withFreeQueue x).pending = s.pending := rfl

@[simp] theorem State.withLastTouched_slots (x : LastTouched) : (s.withLastTouched x).slots = s.slots := rfl
@[simp] theorem State.withLastTouched_freeQueue (x : LastTouched) : (s.withLastTouched x).freeQueue = s.freeQueue := rfl
@[simp] theorem State.withLastTouched_lastTouched (x : LastTouched) : (s.withLastTouched x).lastTouched = x := rfl
@[simp] theorem State.withLastTouched_directory (x : LastTouched) : (s.withLastTouched x).directory = s.directory := rfl
@[simp] theorem State.withLastTouched_zones (x : LastTouched) : (s.withLastTouched x).zones = s.zones := rfl
@[simp] theorem State.withLastTouched_timeBase (x : LastTouched) : (s.withLastTouched x).timeBase = s.timeBase := rfl
@[simp] theorem State.withLastTouched_deferred (x : LastTouched) : (s.withLastTouched x).deferred = s.deferred := rfl
@[simp] theorem State.withLastTouched_poolFree (x : LastTouched) : (s.withLastTouched x).poolFree = s.poolFree := rfl
@[simp] theorem State.withLastTouched_port (x : LastTouched) : (s.withLastTouched x).port = s.port := rfl
@[simp] theorem State.withLastTouched_answers (x : LastTouched) : (s.withLastTouched x).answers = s.answers := rfl
@[simp] theorem State.withLastTouched_transmitter (x : LastTouched) : (s.withLastTouched x).transmitter = s.transmitter := rfl
@[simp] theorem State.withLastTouched_host (x : LastTouched) : (s.withLastTouched x).host = s.host := rfl
@[simp] theorem State.withLastTouched_settings (x : LastTouched) : (s.withLastTouched x).settings = s.settings := rfl
@[simp] theorem State.withLastTouched_counters (x : LastTouched) : (s.withLastTouched x).counters = s.counters := rfl
@[simp] theorem State.withLastTouched_maint (x : LastTouched) : (s.withLastTouched x).maint = s.maint := rfl
@[simp] theorem State.withLastTouched_straps (x : LastTouched) : (s.withLastTouched x).straps = s.straps := rfl
@[simp] theorem State.withLastTouched_choices (x : LastTouched) : (s.withLastTouched x).choices = s.choices := rfl
@[simp] theorem State.withLastTouched_pending (x : LastTouched) : (s.withLastTouched x).pending = s.pending := rfl

@[simp] theorem State.withDirectory_slots (x : List DirEntry) : (s.withDirectory x).slots = s.slots := rfl
@[simp] theorem State.withDirectory_freeQueue (x : List DirEntry) : (s.withDirectory x).freeQueue = s.freeQueue := rfl
@[simp] theorem State.withDirectory_lastTouched (x : List DirEntry) : (s.withDirectory x).lastTouched = s.lastTouched := rfl
@[simp] theorem State.withDirectory_directory (x : List DirEntry) : (s.withDirectory x).directory = x := rfl
@[simp] theorem State.withDirectory_zones (x : List DirEntry) : (s.withDirectory x).zones = s.zones := rfl
@[simp] theorem State.withDirectory_timeBase (x : List DirEntry) : (s.withDirectory x).timeBase = s.timeBase := rfl
@[simp] theorem State.withDirectory_deferred (x : List DirEntry) : (s.withDirectory x).deferred = s.deferred := rfl
@[simp] theorem State.withDirectory_poolFree (x : List DirEntry) : (s.withDirectory x).poolFree = s.poolFree := rfl
@[simp] theorem State.withDirectory_port (x : List DirEntry) : (s.withDirectory x).port = s.port := rfl
@[simp] theorem State.withDirectory_answers (x : List DirEntry) : (s.withDirectory x).answers = s.answers := rfl
@[simp] theorem State.withDirectory_transmitter (x : List DirEntry) : (s.withDirectory x).transmitter = s.transmitter := rfl
@[simp] theorem State.withDirectory_host (x : List DirEntry) : (s.withDirectory x).host = s.host := rfl
@[simp] theorem State.withDirectory_settings (x : List DirEntry) : (s.withDirectory x).settings = s.settings := rfl
@[simp] theorem State.withDirectory_counters (x : List DirEntry) : (s.withDirectory x).counters = s.counters := rfl
@[simp] theorem State.withDirectory_maint (x : List DirEntry) : (s.withDirectory x).maint = s.maint := rfl
@[simp] theorem State.withDirectory_straps (x : List DirEntry) : (s.withDirectory x).straps = s.straps := rfl
@[simp] theorem State.withDirectory_choices (x : List DirEntry) : (s.withDirectory x).choices = s.choices := rfl
@[simp] theorem State.withDirectory_pending (x : List DirEntry) : (s.withDirectory x).pending = s.pending := rfl

@[simp] theorem State.withZones_slots (x : Vector Zone 16) : (s.withZones x).slots = s.slots := rfl
@[simp] theorem State.withZones_freeQueue (x : Vector Zone 16) : (s.withZones x).freeQueue = s.freeQueue := rfl
@[simp] theorem State.withZones_lastTouched (x : Vector Zone 16) : (s.withZones x).lastTouched = s.lastTouched := rfl
@[simp] theorem State.withZones_directory (x : Vector Zone 16) : (s.withZones x).directory = s.directory := rfl
@[simp] theorem State.withZones_zones (x : Vector Zone 16) : (s.withZones x).zones = x := rfl
@[simp] theorem State.withZones_timeBase (x : Vector Zone 16) : (s.withZones x).timeBase = s.timeBase := rfl
@[simp] theorem State.withZones_deferred (x : Vector Zone 16) : (s.withZones x).deferred = s.deferred := rfl
@[simp] theorem State.withZones_poolFree (x : Vector Zone 16) : (s.withZones x).poolFree = s.poolFree := rfl
@[simp] theorem State.withZones_port (x : Vector Zone 16) : (s.withZones x).port = s.port := rfl
@[simp] theorem State.withZones_answers (x : Vector Zone 16) : (s.withZones x).answers = s.answers := rfl
@[simp] theorem State.withZones_transmitter (x : Vector Zone 16) : (s.withZones x).transmitter = s.transmitter := rfl
@[simp] theorem State.withZones_host (x : Vector Zone 16) : (s.withZones x).host = s.host := rfl
@[simp] theorem State.withZones_settings (x : Vector Zone 16) : (s.withZones x).settings = s.settings := rfl
@[simp] theorem State.withZones_counters (x : Vector Zone 16) : (s.withZones x).counters = s.counters := rfl
@[simp] theorem State.withZones_maint (x : Vector Zone 16) : (s.withZones x).maint = s.maint := rfl
@[simp] theorem State.withZones_straps (x : Vector Zone 16) : (s.withZones x).straps = s.straps := rfl
@[simp] theorem State.withZones_choices (x : Vector Zone 16) : (s.withZones x).choices = s.choices := rfl
@[simp] theorem State.withZones_pending (x : Vector Zone 16) : (s.withZones x).pending = s.pending := rfl

@[simp] theorem State.withTimeBase_slots (x : Nat) : (s.withTimeBase x).slots = s.slots := rfl
@[simp] theorem State.withTimeBase_freeQueue (x : Nat) : (s.withTimeBase x).freeQueue = s.freeQueue := rfl
@[simp] theorem State.withTimeBase_lastTouched (x : Nat) : (s.withTimeBase x).lastTouched = s.lastTouched := rfl
@[simp] theorem State.withTimeBase_directory (x : Nat) : (s.withTimeBase x).directory = s.directory := rfl
@[simp] theorem State.withTimeBase_zones (x : Nat) : (s.withTimeBase x).zones = s.zones := rfl
@[simp] theorem State.withTimeBase_timeBase (x : Nat) : (s.withTimeBase x).timeBase = x := rfl
@[simp] theorem State.withTimeBase_deferred (x : Nat) : (s.withTimeBase x).deferred = s.deferred := rfl
@[simp] theorem State.withTimeBase_poolFree (x : Nat) : (s.withTimeBase x).poolFree = s.poolFree := rfl
@[simp] theorem State.withTimeBase_port (x : Nat) : (s.withTimeBase x).port = s.port := rfl
@[simp] theorem State.withTimeBase_answers (x : Nat) : (s.withTimeBase x).answers = s.answers := rfl
@[simp] theorem State.withTimeBase_transmitter (x : Nat) : (s.withTimeBase x).transmitter = s.transmitter := rfl
@[simp] theorem State.withTimeBase_host (x : Nat) : (s.withTimeBase x).host = s.host := rfl
@[simp] theorem State.withTimeBase_settings (x : Nat) : (s.withTimeBase x).settings = s.settings := rfl
@[simp] theorem State.withTimeBase_counters (x : Nat) : (s.withTimeBase x).counters = s.counters := rfl
@[simp] theorem State.withTimeBase_maint (x : Nat) : (s.withTimeBase x).maint = s.maint := rfl
@[simp] theorem State.withTimeBase_straps (x : Nat) : (s.withTimeBase x).straps = s.straps := rfl
@[simp] theorem State.withTimeBase_choices (x : Nat) : (s.withTimeBase x).choices = s.choices := rfl
@[simp] theorem State.withTimeBase_pending (x : Nat) : (s.withTimeBase x).pending = s.pending := rfl

@[simp] theorem State.withDeferred_slots (x : List Deferred) : (s.withDeferred x).slots = s.slots := rfl
@[simp] theorem State.withDeferred_freeQueue (x : List Deferred) : (s.withDeferred x).freeQueue = s.freeQueue := rfl
@[simp] theorem State.withDeferred_lastTouched (x : List Deferred) : (s.withDeferred x).lastTouched = s.lastTouched := rfl
@[simp] theorem State.withDeferred_directory (x : List Deferred) : (s.withDeferred x).directory = s.directory := rfl
@[simp] theorem State.withDeferred_zones (x : List Deferred) : (s.withDeferred x).zones = s.zones := rfl
@[simp] theorem State.withDeferred_timeBase (x : List Deferred) : (s.withDeferred x).timeBase = s.timeBase := rfl
@[simp] theorem State.withDeferred_deferred (x : List Deferred) : (s.withDeferred x).deferred = x := rfl
@[simp] theorem State.withDeferred_poolFree (x : List Deferred) : (s.withDeferred x).poolFree = s.poolFree := rfl
@[simp] theorem State.withDeferred_port (x : List Deferred) : (s.withDeferred x).port = s.port := rfl
@[simp] theorem State.withDeferred_answers (x : List Deferred) : (s.withDeferred x).answers = s.answers := rfl
@[simp] theorem State.withDeferred_transmitter (x : List Deferred) : (s.withDeferred x).transmitter = s.transmitter := rfl
@[simp] theorem State.withDeferred_host (x : List Deferred) : (s.withDeferred x).host = s.host := rfl
@[simp] theorem State.withDeferred_settings (x : List Deferred) : (s.withDeferred x).settings = s.settings := rfl
@[simp] theorem State.withDeferred_counters (x : List Deferred) : (s.withDeferred x).counters = s.counters := rfl
@[simp] theorem State.withDeferred_maint (x : List Deferred) : (s.withDeferred x).maint = s.maint := rfl
@[simp] theorem State.withDeferred_straps (x : List Deferred) : (s.withDeferred x).straps = s.straps := rfl
@[simp] theorem State.withDeferred_choices (x : List Deferred) : (s.withDeferred x).choices = s.choices := rfl
@[simp] theorem State.withDeferred_pending (x : List Deferred) : (s.withDeferred x).pending = s.pending := rfl

@[simp] theorem State.withPoolFree_slots (x : Nat) : (s.withPoolFree x).slots = s.slots := rfl
@[simp] theorem State.withPoolFree_freeQueue (x : Nat) : (s.withPoolFree x).freeQueue = s.freeQueue := rfl
@[simp] theorem State.withPoolFree_lastTouched (x : Nat) : (s.withPoolFree x).lastTouched = s.lastTouched := rfl
@[simp] theorem State.withPoolFree_directory (x : Nat) : (s.withPoolFree x).directory = s.directory := rfl
@[simp] theorem State.withPoolFree_zones (x : Nat) : (s.withPoolFree x).zones = s.zones := rfl
@[simp] theorem State.withPoolFree_timeBase (x : Nat) : (s.withPoolFree x).timeBase = s.timeBase := rfl
@[simp] theorem State.withPoolFree_deferred (x : Nat) : (s.withPoolFree x).deferred = s.deferred := rfl
@[simp] theorem State.withPoolFree_poolFree (x : Nat) : (s.withPoolFree x).poolFree = x := rfl
@[simp] theorem State.withPoolFree_port (x : Nat) : (s.withPoolFree x).port = s.port := rfl
@[simp] theorem State.withPoolFree_answers (x : Nat) : (s.withPoolFree x).answers = s.answers := rfl
@[simp] theorem State.withPoolFree_transmitter (x : Nat) : (s.withPoolFree x).transmitter = s.transmitter := rfl
@[simp] theorem State.withPoolFree_host (x : Nat) : (s.withPoolFree x).host = s.host := rfl
@[simp] theorem State.withPoolFree_settings (x : Nat) : (s.withPoolFree x).settings = s.settings := rfl
@[simp] theorem State.withPoolFree_counters (x : Nat) : (s.withPoolFree x).counters = s.counters := rfl
@[simp] theorem State.withPoolFree_maint (x : Nat) : (s.withPoolFree x).maint = s.maint := rfl
@[simp] theorem State.withPoolFree_straps (x : Nat) : (s.withPoolFree x).straps = s.straps := rfl
@[simp] theorem State.withPoolFree_choices (x : Nat) : (s.withPoolFree x).choices = s.choices := rfl
@[simp] theorem State.withPoolFree_pending (x : Nat) : (s.withPoolFree x).pending = s.pending := rfl

@[simp] theorem State.withPort_slots (x : Port) : (s.withPort x).slots = s.slots := rfl
@[simp] theorem State.withPort_freeQueue (x : Port) : (s.withPort x).freeQueue = s.freeQueue := rfl
@[simp] theorem State.withPort_lastTouched (x : Port) : (s.withPort x).lastTouched = s.lastTouched := rfl
@[simp] theorem State.withPort_directory (x : Port) : (s.withPort x).directory = s.directory := rfl
@[simp] theorem State.withPort_zones (x : Port) : (s.withPort x).zones = s.zones := rfl
@[simp] theorem State.withPort_timeBase (x : Port) : (s.withPort x).timeBase = s.timeBase := rfl
@[simp] theorem State.withPort_deferred (x : Port) : (s.withPort x).deferred = s.deferred := rfl
@[simp] theorem State.withPort_poolFree (x : Port) : (s.withPort x).poolFree = s.poolFree := rfl
@[simp] theorem State.withPort_port (x : Port) : (s.withPort x).port = x := rfl
@[simp] theorem State.withPort_answers (x : Port) : (s.withPort x).answers = s.answers := rfl
@[simp] theorem State.withPort_transmitter (x : Port) : (s.withPort x).transmitter = s.transmitter := rfl
@[simp] theorem State.withPort_host (x : Port) : (s.withPort x).host = s.host := rfl
@[simp] theorem State.withPort_settings (x : Port) : (s.withPort x).settings = s.settings := rfl
@[simp] theorem State.withPort_counters (x : Port) : (s.withPort x).counters = s.counters := rfl
@[simp] theorem State.withPort_maint (x : Port) : (s.withPort x).maint = s.maint := rfl
@[simp] theorem State.withPort_straps (x : Port) : (s.withPort x).straps = s.straps := rfl
@[simp] theorem State.withPort_choices (x : Port) : (s.withPort x).choices = s.choices := rfl
@[simp] theorem State.withPort_pending (x : Port) : (s.withPort x).pending = s.pending := rfl

@[simp] theorem State.withAnswers_slots (x : List Answer) : (s.withAnswers x).slots = s.slots := rfl
@[simp] theorem State.withAnswers_freeQueue (x : List Answer) : (s.withAnswers x).freeQueue = s.freeQueue := rfl
@[simp] theorem State.withAnswers_lastTouched (x : List Answer) : (s.withAnswers x).lastTouched = s.lastTouched := rfl
@[simp] theorem State.withAnswers_directory (x : List Answer) : (s.withAnswers x).directory = s.directory := rfl
@[simp] theorem State.withAnswers_zones (x : List Answer) : (s.withAnswers x).zones = s.zones := rfl
@[simp] theorem State.withAnswers_timeBase (x : List Answer) : (s.withAnswers x).timeBase = s.timeBase := rfl
@[simp] theorem State.withAnswers_deferred (x : List Answer) : (s.withAnswers x).deferred = s.deferred := rfl
@[simp] theorem State.withAnswers_poolFree (x : List Answer) : (s.withAnswers x).poolFree = s.poolFree := rfl
@[simp] theorem State.withAnswers_port (x : List Answer) : (s.withAnswers x).port = s.port := rfl
@[simp] theorem State.withAnswers_answers (x : List Answer) : (s.withAnswers x).answers = x := rfl
@[simp] theorem State.withAnswers_transmitter (x : List Answer) : (s.withAnswers x).transmitter = s.transmitter := rfl
@[simp] theorem State.withAnswers_host (x : List Answer) : (s.withAnswers x).host = s.host := rfl
@[simp] theorem State.withAnswers_settings (x : List Answer) : (s.withAnswers x).settings = s.settings := rfl
@[simp] theorem State.withAnswers_counters (x : List Answer) : (s.withAnswers x).counters = s.counters := rfl
@[simp] theorem State.withAnswers_maint (x : List Answer) : (s.withAnswers x).maint = s.maint := rfl
@[simp] theorem State.withAnswers_straps (x : List Answer) : (s.withAnswers x).straps = s.straps := rfl
@[simp] theorem State.withAnswers_choices (x : List Answer) : (s.withAnswers x).choices = s.choices := rfl
@[simp] theorem State.withAnswers_pending (x : List Answer) : (s.withAnswers x).pending = s.pending := rfl

@[simp] theorem State.withTransmitter_slots (x : Option Frame) : (s.withTransmitter x).slots = s.slots := rfl
@[simp] theorem State.withTransmitter_freeQueue (x : Option Frame) : (s.withTransmitter x).freeQueue = s.freeQueue := rfl
@[simp] theorem State.withTransmitter_lastTouched (x : Option Frame) : (s.withTransmitter x).lastTouched = s.lastTouched := rfl
@[simp] theorem State.withTransmitter_directory (x : Option Frame) : (s.withTransmitter x).directory = s.directory := rfl
@[simp] theorem State.withTransmitter_zones (x : Option Frame) : (s.withTransmitter x).zones = s.zones := rfl
@[simp] theorem State.withTransmitter_timeBase (x : Option Frame) : (s.withTransmitter x).timeBase = s.timeBase := rfl
@[simp] theorem State.withTransmitter_deferred (x : Option Frame) : (s.withTransmitter x).deferred = s.deferred := rfl
@[simp] theorem State.withTransmitter_poolFree (x : Option Frame) : (s.withTransmitter x).poolFree = s.poolFree := rfl
@[simp] theorem State.withTransmitter_port (x : Option Frame) : (s.withTransmitter x).port = s.port := rfl
@[simp] theorem State.withTransmitter_answers (x : Option Frame) : (s.withTransmitter x).answers = s.answers := rfl
@[simp] theorem State.withTransmitter_transmitter (x : Option Frame) : (s.withTransmitter x).transmitter = x := rfl
@[simp] theorem State.withTransmitter_host (x : Option Frame) : (s.withTransmitter x).host = s.host := rfl
@[simp] theorem State.withTransmitter_settings (x : Option Frame) : (s.withTransmitter x).settings = s.settings := rfl
@[simp] theorem State.withTransmitter_counters (x : Option Frame) : (s.withTransmitter x).counters = s.counters := rfl
@[simp] theorem State.withTransmitter_maint (x : Option Frame) : (s.withTransmitter x).maint = s.maint := rfl
@[simp] theorem State.withTransmitter_straps (x : Option Frame) : (s.withTransmitter x).straps = s.straps := rfl
@[simp] theorem State.withTransmitter_choices (x : Option Frame) : (s.withTransmitter x).choices = s.choices := rfl
@[simp] theorem State.withTransmitter_pending (x : Option Frame) : (s.withTransmitter x).pending = s.pending := rfl

@[simp] theorem State.withHost_slots (x : HostUnit) : (s.withHost x).slots = s.slots := rfl
@[simp] theorem State.withHost_freeQueue (x : HostUnit) : (s.withHost x).freeQueue = s.freeQueue := rfl
@[simp] theorem State.withHost_lastTouched (x : HostUnit) : (s.withHost x).lastTouched = s.lastTouched := rfl
@[simp] theorem State.withHost_directory (x : HostUnit) : (s.withHost x).directory = s.directory := rfl
@[simp] theorem State.withHost_zones (x : HostUnit) : (s.withHost x).zones = s.zones := rfl
@[simp] theorem State.withHost_timeBase (x : HostUnit) : (s.withHost x).timeBase = s.timeBase := rfl
@[simp] theorem State.withHost_deferred (x : HostUnit) : (s.withHost x).deferred = s.deferred := rfl
@[simp] theorem State.withHost_poolFree (x : HostUnit) : (s.withHost x).poolFree = s.poolFree := rfl
@[simp] theorem State.withHost_port (x : HostUnit) : (s.withHost x).port = s.port := rfl
@[simp] theorem State.withHost_answers (x : HostUnit) : (s.withHost x).answers = s.answers := rfl
@[simp] theorem State.withHost_transmitter (x : HostUnit) : (s.withHost x).transmitter = s.transmitter := rfl
@[simp] theorem State.withHost_host (x : HostUnit) : (s.withHost x).host = x := rfl
@[simp] theorem State.withHost_settings (x : HostUnit) : (s.withHost x).settings = s.settings := rfl
@[simp] theorem State.withHost_counters (x : HostUnit) : (s.withHost x).counters = s.counters := rfl
@[simp] theorem State.withHost_maint (x : HostUnit) : (s.withHost x).maint = s.maint := rfl
@[simp] theorem State.withHost_straps (x : HostUnit) : (s.withHost x).straps = s.straps := rfl
@[simp] theorem State.withHost_choices (x : HostUnit) : (s.withHost x).choices = s.choices := rfl
@[simp] theorem State.withHost_pending (x : HostUnit) : (s.withHost x).pending = s.pending := rfl

@[simp] theorem State.withSettings_slots (x : Settings) : (s.withSettings x).slots = s.slots := rfl
@[simp] theorem State.withSettings_freeQueue (x : Settings) : (s.withSettings x).freeQueue = s.freeQueue := rfl
@[simp] theorem State.withSettings_lastTouched (x : Settings) : (s.withSettings x).lastTouched = s.lastTouched := rfl
@[simp] theorem State.withSettings_directory (x : Settings) : (s.withSettings x).directory = s.directory := rfl
@[simp] theorem State.withSettings_zones (x : Settings) : (s.withSettings x).zones = s.zones := rfl
@[simp] theorem State.withSettings_timeBase (x : Settings) : (s.withSettings x).timeBase = s.timeBase := rfl
@[simp] theorem State.withSettings_deferred (x : Settings) : (s.withSettings x).deferred = s.deferred := rfl
@[simp] theorem State.withSettings_poolFree (x : Settings) : (s.withSettings x).poolFree = s.poolFree := rfl
@[simp] theorem State.withSettings_port (x : Settings) : (s.withSettings x).port = s.port := rfl
@[simp] theorem State.withSettings_answers (x : Settings) : (s.withSettings x).answers = s.answers := rfl
@[simp] theorem State.withSettings_transmitter (x : Settings) : (s.withSettings x).transmitter = s.transmitter := rfl
@[simp] theorem State.withSettings_host (x : Settings) : (s.withSettings x).host = s.host := rfl
@[simp] theorem State.withSettings_settings (x : Settings) : (s.withSettings x).settings = x := rfl
@[simp] theorem State.withSettings_counters (x : Settings) : (s.withSettings x).counters = s.counters := rfl
@[simp] theorem State.withSettings_maint (x : Settings) : (s.withSettings x).maint = s.maint := rfl
@[simp] theorem State.withSettings_straps (x : Settings) : (s.withSettings x).straps = s.straps := rfl
@[simp] theorem State.withSettings_choices (x : Settings) : (s.withSettings x).choices = s.choices := rfl
@[simp] theorem State.withSettings_pending (x : Settings) : (s.withSettings x).pending = s.pending := rfl

@[simp] theorem State.withCounters_slots (x : Counters) : (s.withCounters x).slots = s.slots := rfl
@[simp] theorem State.withCounters_freeQueue (x : Counters) : (s.withCounters x).freeQueue = s.freeQueue := rfl
@[simp] theorem State.withCounters_lastTouched (x : Counters) : (s.withCounters x).lastTouched = s.lastTouched := rfl
@[simp] theorem State.withCounters_directory (x : Counters) : (s.withCounters x).directory = s.directory := rfl
@[simp] theorem State.withCounters_zones (x : Counters) : (s.withCounters x).zones = s.zones := rfl
@[simp] theorem State.withCounters_timeBase (x : Counters) : (s.withCounters x).timeBase = s.timeBase := rfl
@[simp] theorem State.withCounters_deferred (x : Counters) : (s.withCounters x).deferred = s.deferred := rfl
@[simp] theorem State.withCounters_poolFree (x : Counters) : (s.withCounters x).poolFree = s.poolFree := rfl
@[simp] theorem State.withCounters_port (x : Counters) : (s.withCounters x).port = s.port := rfl
@[simp] theorem State.withCounters_answers (x : Counters) : (s.withCounters x).answers = s.answers := rfl
@[simp] theorem State.withCounters_transmitter (x : Counters) : (s.withCounters x).transmitter = s.transmitter := rfl
@[simp] theorem State.withCounters_host (x : Counters) : (s.withCounters x).host = s.host := rfl
@[simp] theorem State.withCounters_settings (x : Counters) : (s.withCounters x).settings = s.settings := rfl
@[simp] theorem State.withCounters_counters (x : Counters) : (s.withCounters x).counters = x := rfl
@[simp] theorem State.withCounters_maint (x : Counters) : (s.withCounters x).maint = s.maint := rfl
@[simp] theorem State.withCounters_straps (x : Counters) : (s.withCounters x).straps = s.straps := rfl
@[simp] theorem State.withCounters_choices (x : Counters) : (s.withCounters x).choices = s.choices := rfl
@[simp] theorem State.withCounters_pending (x : Counters) : (s.withCounters x).pending = s.pending := rfl

@[simp] theorem State.withMaint_slots (x : Maint) : (s.withMaint x).slots = s.slots := rfl
@[simp] theorem State.withMaint_freeQueue (x : Maint) : (s.withMaint x).freeQueue = s.freeQueue := rfl
@[simp] theorem State.withMaint_lastTouched (x : Maint) : (s.withMaint x).lastTouched = s.lastTouched := rfl
@[simp] theorem State.withMaint_directory (x : Maint) : (s.withMaint x).directory = s.directory := rfl
@[simp] theorem State.withMaint_zones (x : Maint) : (s.withMaint x).zones = s.zones := rfl
@[simp] theorem State.withMaint_timeBase (x : Maint) : (s.withMaint x).timeBase = s.timeBase := rfl
@[simp] theorem State.withMaint_deferred (x : Maint) : (s.withMaint x).deferred = s.deferred := rfl
@[simp] theorem State.withMaint_poolFree (x : Maint) : (s.withMaint x).poolFree = s.poolFree := rfl
@[simp] theorem State.withMaint_port (x : Maint) : (s.withMaint x).port = s.port := rfl
@[simp] theorem State.withMaint_answers (x : Maint) : (s.withMaint x).answers = s.answers := rfl
@[simp] theorem State.withMaint_transmitter (x : Maint) : (s.withMaint x).transmitter = s.transmitter := rfl
@[simp] theorem State.withMaint_host (x : Maint) : (s.withMaint x).host = s.host := rfl
@[simp] theorem State.withMaint_settings (x : Maint) : (s.withMaint x).settings = s.settings := rfl
@[simp] theorem State.withMaint_counters (x : Maint) : (s.withMaint x).counters = s.counters := rfl
@[simp] theorem State.withMaint_maint (x : Maint) : (s.withMaint x).maint = x := rfl
@[simp] theorem State.withMaint_straps (x : Maint) : (s.withMaint x).straps = s.straps := rfl
@[simp] theorem State.withMaint_choices (x : Maint) : (s.withMaint x).choices = s.choices := rfl
@[simp] theorem State.withMaint_pending (x : Maint) : (s.withMaint x).pending = s.pending := rfl

@[simp] theorem State.withChoices_slots (x : Nat) : (s.withChoices x).slots = s.slots := rfl
@[simp] theorem State.withChoices_freeQueue (x : Nat) : (s.withChoices x).freeQueue = s.freeQueue := rfl
@[simp] theorem State.withChoices_lastTouched (x : Nat) : (s.withChoices x).lastTouched = s.lastTouched := rfl
@[simp] theorem State.withChoices_directory (x : Nat) : (s.withChoices x).directory = s.directory := rfl
@[simp] theorem State.withChoices_zones (x : Nat) : (s.withChoices x).zones = s.zones := rfl
@[simp] theorem State.withChoices_timeBase (x : Nat) : (s.withChoices x).timeBase = s.timeBase := rfl
@[simp] theorem State.withChoices_deferred (x : Nat) : (s.withChoices x).deferred = s.deferred := rfl
@[simp] theorem State.withChoices_poolFree (x : Nat) : (s.withChoices x).poolFree = s.poolFree := rfl
@[simp] theorem State.withChoices_port (x : Nat) : (s.withChoices x).port = s.port := rfl
@[simp] theorem State.withChoices_answers (x : Nat) : (s.withChoices x).answers = s.answers := rfl
@[simp] theorem State.withChoices_transmitter (x : Nat) : (s.withChoices x).transmitter = s.transmitter := rfl
@[simp] theorem State.withChoices_host (x : Nat) : (s.withChoices x).host = s.host := rfl
@[simp] theorem State.withChoices_settings (x : Nat) : (s.withChoices x).settings = s.settings := rfl
@[simp] theorem State.withChoices_counters (x : Nat) : (s.withChoices x).counters = s.counters := rfl
@[simp] theorem State.withChoices_maint (x : Nat) : (s.withChoices x).maint = s.maint := rfl
@[simp] theorem State.withChoices_straps (x : Nat) : (s.withChoices x).straps = s.straps := rfl
@[simp] theorem State.withChoices_choices (x : Nat) : (s.withChoices x).choices = x := rfl
@[simp] theorem State.withChoices_pending (x : Nat) : (s.withChoices x).pending = s.pending := rfl

@[simp] theorem State.withPending_slots (x : List Instr) : (s.withPending x).slots = s.slots := rfl
@[simp] theorem State.withPending_freeQueue (x : List Instr) : (s.withPending x).freeQueue = s.freeQueue := rfl
@[simp] theorem State.withPending_lastTouched (x : List Instr) : (s.withPending x).lastTouched = s.lastTouched := rfl
@[simp] theorem State.withPending_directory (x : List Instr) : (s.withPending x).directory = s.directory := rfl
@[simp] theorem State.withPending_zones (x : List Instr) : (s.withPending x).zones = s.zones := rfl
@[simp] theorem State.withPending_timeBase (x : List Instr) : (s.withPending x).timeBase = s.timeBase := rfl
@[simp] theorem State.withPending_deferred (x : List Instr) : (s.withPending x).deferred = s.deferred := rfl
@[simp] theorem State.withPending_poolFree (x : List Instr) : (s.withPending x).poolFree = s.poolFree := rfl
@[simp] theorem State.withPending_port (x : List Instr) : (s.withPending x).port = s.port := rfl
@[simp] theorem State.withPending_answers (x : List Instr) : (s.withPending x).answers = s.answers := rfl
@[simp] theorem State.withPending_transmitter (x : List Instr) : (s.withPending x).transmitter = s.transmitter := rfl
@[simp] theorem State.withPending_host (x : List Instr) : (s.withPending x).host = s.host := rfl
@[simp] theorem State.withPending_settings (x : List Instr) : (s.withPending x).settings = s.settings := rfl
@[simp] theorem State.withPending_counters (x : List Instr) : (s.withPending x).counters = s.counters := rfl
@[simp] theorem State.withPending_maint (x : List Instr) : (s.withPending x).maint = s.maint := rfl
@[simp] theorem State.withPending_straps (x : List Instr) : (s.withPending x).straps = s.straps := rfl
@[simp] theorem State.withPending_choices (x : List Instr) : (s.withPending x).choices = s.choices := rfl
@[simp] theorem State.withPending_pending (x : List Instr) : (s.withPending x).pending = x := rfl

end Sys2Proof.Machine
end

