-- ==== Sys2Proof/Laws/Ops.lean ====
section
/-! SUPPORT. What each shared operation of the record store and its neighbours can do, said once. -/

namespace Sys2Proof.Machine

variable (s : State)

/-! ## Slots, records, zones -/

@[simp] theorem State.setSlot_freeQueue (i : SlotIx) (x : Slot) : (s.setSlot i x).freeQueue = s.freeQueue := rfl
@[simp] theorem State.setSlot_lastTouched (i : SlotIx) (x : Slot) : (s.setSlot i x).lastTouched = s.lastTouched := rfl
@[simp] theorem State.setSlot_directory (i : SlotIx) (x : Slot) : (s.setSlot i x).directory = s.directory := rfl
@[simp] theorem State.setSlot_zones (i : SlotIx) (x : Slot) : (s.setSlot i x).zones = s.zones := rfl
@[simp] theorem State.setSlot_timeBase (i : SlotIx) (x : Slot) : (s.setSlot i x).timeBase = s.timeBase := rfl
@[simp] theorem State.setSlot_deferred (i : SlotIx) (x : Slot) : (s.setSlot i x).deferred = s.deferred := rfl
@[simp] theorem State.setSlot_poolFree (i : SlotIx) (x : Slot) : (s.setSlot i x).poolFree = s.poolFree := rfl
@[simp] theorem State.setSlot_port (i : SlotIx) (x : Slot) : (s.setSlot i x).port = s.port := rfl
@[simp] theorem State.setSlot_answers (i : SlotIx) (x : Slot) : (s.setSlot i x).answers = s.answers := rfl
@[simp] theorem State.setSlot_transmitter (i : SlotIx) (x : Slot) : (s.setSlot i x).transmitter = s.transmitter := rfl
@[simp] theorem State.setSlot_host (i : SlotIx) (x : Slot) : (s.setSlot i x).host = s.host := rfl
@[simp] theorem State.setSlot_settings (i : SlotIx) (x : Slot) : (s.setSlot i x).settings = s.settings := rfl
@[simp] theorem State.setSlot_counters (i : SlotIx) (x : Slot) : (s.setSlot i x).counters = s.counters := rfl
@[simp] theorem State.setSlot_maint (i : SlotIx) (x : Slot) : (s.setSlot i x).maint = s.maint := rfl
@[simp] theorem State.setSlot_straps (i : SlotIx) (x : Slot) : (s.setSlot i x).straps = s.straps := rfl
@[simp] theorem State.setSlot_choices (i : SlotIx) (x : Slot) : (s.setSlot i x).choices = s.choices := rfl
@[simp] theorem State.setSlot_pending (i : SlotIx) (x : Slot) : (s.setSlot i x).pending = s.pending := rfl

@[simp] theorem State.setRecord_freeQueue (i : SlotIx) (r : Record) : (s.setRecord i r).freeQueue = s.freeQueue := rfl
@[simp] theorem State.setRecord_lastTouched (i : SlotIx) (r : Record) : (s.setRecord i r).lastTouched = s.lastTouched := rfl
@[simp] theorem State.setRecord_directory (i : SlotIx) (r : Record) : (s.setRecord i r).directory = s.directory := rfl
@[simp] theorem State.setRecord_zones (i : SlotIx) (r : Record) : (s.setRecord i r).zones = s.zones := rfl
@[simp] theorem State.setRecord_timeBase (i : SlotIx) (r : Record) : (s.setRecord i r).timeBase = s.timeBase := rfl
@[simp] theorem State.setRecord_deferred (i : SlotIx) (r : Record) : (s.setRecord i r).deferred = s.deferred := rfl
@[simp] theorem State.setRecord_poolFree (i : SlotIx) (r : Record) : (s.setRecord i r).poolFree = s.poolFree := rfl
@[simp] theorem State.setRecord_port (i : SlotIx) (r : Record) : (s.setRecord i r).port = s.port := rfl
@[simp] theorem State.setRecord_answers (i : SlotIx) (r : Record) : (s.setRecord i r).answers = s.answers := rfl
@[simp] theorem State.setRecord_transmitter (i : SlotIx) (r : Record) : (s.setRecord i r).transmitter = s.transmitter := rfl
@[simp] theorem State.setRecord_host (i : SlotIx) (r : Record) : (s.setRecord i r).host = s.host := rfl
@[simp] theorem State.setRecord_settings (i : SlotIx) (r : Record) : (s.setRecord i r).settings = s.settings := rfl
@[simp] theorem State.setRecord_counters (i : SlotIx) (r : Record) : (s.setRecord i r).counters = s.counters := rfl
@[simp] theorem State.setRecord_maint (i : SlotIx) (r : Record) : (s.setRecord i r).maint = s.maint := rfl
@[simp] theorem State.setRecord_straps (i : SlotIx) (r : Record) : (s.setRecord i r).straps = s.straps := rfl
@[simp] theorem State.setRecord_choices (i : SlotIx) (r : Record) : (s.setRecord i r).choices = s.choices := rfl
@[simp] theorem State.setRecord_pending (i : SlotIx) (r : Record) : (s.setRecord i r).pending = s.pending := rfl

@[simp] theorem State.setZone_slots (z : ZoneIx) (x : Zone) : (s.setZone z x).slots = s.slots := rfl
@[simp] theorem State.setZone_freeQueue (z : ZoneIx) (x : Zone) : (s.setZone z x).freeQueue = s.freeQueue := rfl
@[simp] theorem State.setZone_lastTouched (z : ZoneIx) (x : Zone) : (s.setZone z x).lastTouched = s.lastTouched := rfl
@[simp] theorem State.setZone_directory (z : ZoneIx) (x : Zone) : (s.setZone z x).directory = s.directory := rfl
@[simp] theorem State.setZone_timeBase (z : ZoneIx) (x : Zone) : (s.setZone z x).timeBase = s.timeBase := rfl
@[simp] theorem State.setZone_deferred (z : ZoneIx) (x : Zone) : (s.setZone z x).deferred = s.deferred := rfl
@[simp] theorem State.setZone_poolFree (z : ZoneIx) (x : Zone) : (s.setZone z x).poolFree = s.poolFree := rfl
@[simp] theorem State.setZone_port (z : ZoneIx) (x : Zone) : (s.setZone z x).port = s.port := rfl
@[simp] theorem State.setZone_answers (z : ZoneIx) (x : Zone) : (s.setZone z x).answers = s.answers := rfl
@[simp] theorem State.setZone_transmitter (z : ZoneIx) (x : Zone) : (s.setZone z x).transmitter = s.transmitter := rfl
@[simp] theorem State.setZone_host (z : ZoneIx) (x : Zone) : (s.setZone z x).host = s.host := rfl
@[simp] theorem State.setZone_settings (z : ZoneIx) (x : Zone) : (s.setZone z x).settings = s.settings := rfl
@[simp] theorem State.setZone_counters (z : ZoneIx) (x : Zone) : (s.setZone z x).counters = s.counters := rfl
@[simp] theorem State.setZone_maint (z : ZoneIx) (x : Zone) : (s.setZone z x).maint = s.maint := rfl
@[simp] theorem State.setZone_straps (z : ZoneIx) (x : Zone) : (s.setZone z x).straps = s.straps := rfl
@[simp] theorem State.setZone_choices (z : ZoneIx) (x : Zone) : (s.setZone z x).choices = s.choices := rfl
@[simp] theorem State.setZone_pending (z : ZoneIx) (x : Zone) : (s.setZone z x).pending = s.pending := rfl

@[simp] theorem State.count_slots (k : CounterId) : (s.count k).slots = s.slots := rfl
@[simp] theorem State.count_freeQueue (k : CounterId) : (s.count k).freeQueue = s.freeQueue := rfl
@[simp] theorem State.count_lastTouched (k : CounterId) : (s.count k).lastTouched = s.lastTouched := rfl
@[simp] theorem State.count_directory (k : CounterId) : (s.count k).directory = s.directory := rfl
@[simp] theorem State.count_zones (k : CounterId) : (s.count k).zones = s.zones := rfl
@[simp] theorem State.count_timeBase (k : CounterId) : (s.count k).timeBase = s.timeBase := rfl
@[simp] theorem State.count_deferred (k : CounterId) : (s.count k).deferred = s.deferred := rfl
@[simp] theorem State.count_poolFree (k : CounterId) : (s.count k).poolFree = s.poolFree := rfl
@[simp] theorem State.count_port (k : CounterId) : (s.count k).port = s.port := rfl
@[simp] theorem State.count_answers (k : CounterId) : (s.count k).answers = s.answers := rfl
@[simp] theorem State.count_transmitter (k : CounterId) : (s.count k).transmitter = s.transmitter := rfl
@[simp] theorem State.count_host (k : CounterId) : (s.count k).host = s.host := rfl
@[simp] theorem State.count_settings (k : CounterId) : (s.count k).settings = s.settings := rfl
@[simp] theorem State.count_maint (k : CounterId) : (s.count k).maint = s.maint := rfl
@[simp] theorem State.count_straps (k : CounterId) : (s.count k).straps = s.straps := rfl
@[simp] theorem State.count_choices (k : CounterId) : (s.count k).choices = s.choices := rfl
@[simp] theorem State.count_pending (k : CounterId) : (s.count k).pending = s.pending := rfl

@[simp] theorem joinAnswers_slots (b : AnswerBody) (n : Addr) (t : Tag) : (joinAnswers b n t s).slots = s.slots := rfl
@[simp] theorem joinAnswers_freeQueue (b : AnswerBody) (n : Addr) (t : Tag) : (joinAnswers b n t s).freeQueue = s.freeQueue := rfl
@[simp] theorem joinAnswers_lastTouched (b : AnswerBody) (n : Addr) (t : Tag) : (joinAnswers b n t s).lastTouched = s.lastTouched := rfl
@[simp] theorem joinAnswers_directory (b : AnswerBody) (n : Addr) (t : Tag) : (joinAnswers b n t s).directory = s.directory := rfl
@[simp] theorem joinAnswers_zones (b : AnswerBody) (n : Addr) (t : Tag) : (joinAnswers b n t s).zones = s.zones := rfl
@[simp] theorem joinAnswers_timeBase (b : AnswerBody) (n : Addr) (t : Tag) : (joinAnswers b n t s).timeBase = s.timeBase := rfl
@[simp] theorem joinAnswers_deferred (b : AnswerBody) (n : Addr) (t : Tag) : (joinAnswers b n t s).deferred = s.deferred := rfl
@[simp] theorem joinAnswers_poolFree (b : AnswerBody) (n : Addr) (t : Tag) : (joinAnswers b n t s).poolFree = s.poolFree := rfl
@[simp] theorem joinAnswers_port (b : AnswerBody) (n : Addr) (t : Tag) : (joinAnswers b n t s).port = s.port := rfl
@[simp] theorem joinAnswers_transmitter (b : AnswerBody) (n : Addr) (t : Tag) : (joinAnswers b n t s).transmitter = s.transmitter := rfl
@[simp] theorem joinAnswers_host (b : AnswerBody) (n : Addr) (t : Tag) : (joinAnswers b n t s).host = s.host := rfl
@[simp] theorem joinAnswers_settings (b : AnswerBody) (n : Addr) (t : Tag) : (joinAnswers b n t s).settings = s.settings := rfl
@[simp] theorem joinAnswers_counters (b : AnswerBody) (n : Addr) (t : Tag) : (joinAnswers b n t s).counters = s.counters := rfl
@[simp] theorem joinAnswers_maint (b : AnswerBody) (n : Addr) (t : Tag) : (joinAnswers b n t s).maint = s.maint := rfl
@[simp] theorem joinAnswers_straps (b : AnswerBody) (n : Addr) (t : Tag) : (joinAnswers b n t s).straps = s.straps := rfl
@[simp] theorem joinAnswers_choices (b : AnswerBody) (n : Addr) (t : Tag) : (joinAnswers b n t s).choices = s.choices := rfl
@[simp] theorem joinAnswers_pending (b : AnswerBody) (n : Addr) (t : Tag) : (joinAnswers b n t s).pending = s.pending := rfl

@[simp] theorem joinAnswers_answers (b : AnswerBody) (n : Addr) (t : Tag) :
    (joinAnswers b n t s).answers = s.answers ++ [⟨b, n, t, s.timeBase, 0, false⟩] := rfl

@[simp] theorem State.count_counters (k : CounterId) : (s.count k).counters = s.counters.bump k := rfl

theorem State.slot_setSlot (i j : SlotIx) (x : Slot) : (s.setSlot i x).slot j = if j = i then x else s.slot j := by
  rcases eq_or_ne j i with h | h
  · subst h; simp [State.slot, State.setSlot]
  · have : i.val ≠ j.val := fun e => h (Fin.ext e.symm)
    simp [State.slot, State.setSlot, this, h]

@[simp] theorem State.slot_setSlot_self (i : SlotIx) (x : Slot) : (s.setSlot i x).slot i = x := by
  simp [State.slot_setSlot]

@[simp] theorem State.record_setRecord_self (i : SlotIx) (r : Record) : (s.setRecord i r).record i = some r := by
  simp [State.record, State.setRecord]

@[simp] theorem State.incarnation_setRecord (i j : SlotIx) (r : Record) :
    (s.setRecord i r).incarnation j = s.incarnation j := by
  simp only [State.incarnation, State.setRecord, State.slot_setSlot]
  split <;> simp_all

theorem State.record_setRecord (i j : SlotIx) (r : Record) :
    (s.setRecord i r).record j = if j = i then some r else s.record j := by
  simp only [State.record, State.setRecord, State.slot_setSlot]
  split <;> rfl

@[simp] theorem State.setSlot_setSlot (i : SlotIx) (x y : Slot) : (s.setSlot i x).setSlot i y = s.setSlot i y := by
  simp [State.setSlot, State.withSlots]

@[simp] theorem State.setRecord_setRecord (i : SlotIx) (r r' : Record) :
    (s.setRecord i r).setRecord i r' = s.setRecord i r' := by
  simp [State.setRecord, State.incarnation]

theorem State.setRecord_record {i : SlotIx} {r : Record} (h : s.record i = some r) : s.setRecord i r = s := by
  have : s.slots.set i.val ⟨s.incarnation i, some r⟩ i.isLt = s.slots := by
    have : (⟨s.incarnation i, some r⟩ : Slot) = s.slots[i.val] := by
      rw [← h]; rfl
    rw [this]; simp
  simp [State.setRecord, State.setSlot, State.withSlots, this]

theorem State.zone_setZone (z y : ZoneIx) (x : Zone) : (s.setZone z x).zone y = if y = z then x else s.zone y := by
  rcases eq_or_ne y z with h | h
  · subst h; simp [State.zone, State.setZone]
  · have : z.val ≠ y.val := fun e => h (Fin.ext e.symm)
    simp [State.zone, State.setZone, this, h]

@[simp] theorem State.zone_setZone_self (z : ZoneIx) (x : Zone) : (s.setZone z x).zone z = x := by
  simp [State.zone_setZone]

@[simp] theorem State.setZone_setZone (z : ZoneIx) (x y : Zone) : (s.setZone z x).setZone z y = s.setZone z y := by
  simp [State.setZone, State.withZones]

/-- Reads of slots look at the slots alone. -/
theorem State.slot_congr {s u : State} (h : u.slots = s.slots) (i : SlotIx) : u.slot i = s.slot i := by
  simp [State.slot, h]

theorem State.record_congr {s u : State} (h : u.slots = s.slots) (i : SlotIx) : u.record i = s.record i := by
  simp [State.record, State.slot, h]

theorem State.incarnation_congr {s u : State} (h : u.slots = s.slots) (i : SlotIx) :
    u.incarnation i = s.incarnation i := by
  simp [State.incarnation, State.slot, h]

theorem State.zone_congr {s u : State} (h : u.zones = s.zones) (z : ZoneIx) : u.zone z = s.zone z := by
  simp [State.zone, h]

/-! ## Notification requests -/

theorem Answer.isWaitingNotify_fresh (ref : Ref) (t : Tag) (now : Nat) (n : Addr) :
    (freshNotify ref t now n).isWaitingNotify ref n = true := by
  simp [freshNotify, Answer.isWaitingNotify]

theorem Answer.isWaitingNotify_fresh_ne (ref : Ref) (t : Tag) (now : Nat) {n m : Addr} (h : m ≠ n) :
    (freshNotify ref t now m).isWaitingNotify ref n = false := by
  simp [freshNotify, Answer.isWaitingNotify, h]

/-- What one notification request does, by its judgement (R109, R110). -/
theorem notifyRequest_cases (t : Tag) (ref : Ref) (n : Addr) (s : State) :
    (s.waits ref n = true ∧ notifyRequest t ref n s = s) ∨
    (s.waits ref n = false ∧ ¬ s.noRoom ∧
      notifyRequest t ref n s = s.withAnswers (s.answers ++ [freshNotify ref t s.timeBase n])) ∨
    (s.waits ref n = false ∧ s.noRoom ∧
      notifyRequest t ref n s = (setMarker ref n true s).count .notifyMissed) := by
  unfold notifyRequest State.judgeNotify State.waits State.noRoom
  split_ifs with h1 h2
  · exact .inl ⟨h1, rfl⟩
  · refine .inr (.inl ⟨by simpa using h1, ?_, rfl⟩)
    simp only [Config.notifyCapacity, Config.answerCapacity] at h2
    obtain ⟨a, b, c⟩ := h2
    rintro (h | h | h)
    · omega
    · omega
    · exact c h
  · refine .inr (.inr ⟨by simpa using h1, ?_, rfl⟩)
    simp only [Config.notifyCapacity, Config.answerCapacity, not_and_or, not_lt, not_not] at h2
    exact h2

theorem setMarker_of_record {ref : Ref} {r : Record} (h : s.record ref.slot = some r)
    (hi : s.incarnation ref.slot = ref.incarnation) (n : Addr) (m : Bool) :
    setMarker ref n m s = s.setRecord ref.slot { r with subscribers := markNode n m r.subscribers } := by
  simp [setMarker, h, hi]

theorem State.noRoom_append {s u : State} {l : List Answer} (h : s.noRoom) (ha : u.answers = s.answers ++ l)
    (hp : u.port = s.port) : u.noRoom := by
  rcases h with h | h | h
  · exact .inl (by rw [ha, notifyCount, List.countP_append]; exact Nat.le_add_right_of_le h)
  · exact .inr (.inl (by rw [ha, List.length_append]; exact Nat.le_add_right_of_le h))
  · exact .inr (.inr (by rw [hp]; exact h))

theorem State.waits_append {s u : State} {l : List Answer} (ha : u.answers = s.answers ++ l) (ref : Ref) (n : Addr) :
    u.waits ref n = (s.waits ref n || l.any (Answer.isWaitingNotify ref n)) := by
  simp [State.waits, ha]

/-- Nodes that do not wait once fresh NOTIFYs for `l` have joined did not wait before, and are not in `l`. -/
theorem State.not_waits_of_append {s u : State} {l : List Addr} {ref : Ref} {t : Tag} {now : Nat} {n : Addr}
    (ha : u.answers = s.answers ++ l.map (freshNotify ref t now)) (h : u.waits ref n = false) :
    s.waits ref n = false ∧ n ∉ l := by
  rw [State.waits_append ha, Bool.or_eq_false_iff] at h
  refine ⟨h.1, fun hn => ?_⟩
  have := List.any_eq_false.1 h.2 _ (List.mem_map_of_mem hn)
  exact this (Answer.isWaitingNotify_fresh ref t now n)

/-- A subscriber list with the markers of the nodes of `xs` set for which no NOTIFY waits in `u`. -/
def markRefused (ref : Ref) (xs : List Addr) (u : State) (l : List Subscription) : List Subscription :=
  l.map fun y => { y with missed := y.missed || (decide (y.node ∈ xs) && !u.waits ref y.node) }

theorem markRefused_nil (ref : Ref) (u : State) (l : List Subscription) : markRefused ref [] u l = l := by
  simp [markRefused]

theorem State.noRoom_congr {s u : State} (ha : u.answers = s.answers) (hp : u.port = s.port) :
    u.noRoom ↔ s.noRoom := by
  simp [State.noRoom, ha, hp]

/-- What a run of notification requests for one record does (R109, R110). -/
theorem notifyRequests_spec (t : Tag) (ref : Ref) : ∀ (xs : List Addr) (s : State) (r : Record),
    s.record ref.slot = some r → s.incarnation ref.slot = ref.incarnation →
    ∀ u, u = xs.foldl (fun v n => notifyRequest t ref n v) s →
      u.slots = (s.setRecord ref.slot { r with subscribers := markRefused ref xs u r.subscribers }).slots ∧
      Requested ref t xs s u ∧ (s.noRoom → u.answers = s.answers) ∧
      u = { s with slots := u.slots, answers := u.answers, counters := u.counters }
  | [], s, r, h, _, u, hu => by
    subst hu
    refine ⟨?_, ⟨⟨[], by simp, by simp, by simp, by simp⟩, by simp, rfl⟩, fun _ => rfl, rfl⟩
    rw [markRefused_nil]
    exact (congrArg State.slots (State.setRecord_record _ h)).symm
  | n :: xs, s, r, h, hi, u, hu => by
    rw [List.foldl_cons] at hu
    rcases notifyRequest_cases t ref n s with ⟨hw, he⟩ | ⟨hw, hr, he⟩ | ⟨hw, hr, he⟩
    · -- coalesced
      rw [he] at hu
      obtain ⟨h1, ⟨⟨l, hl, hd, hn, ha⟩, hroom, hc⟩, h3, h4⟩ := notifyRequests_spec t ref xs s r h hi u hu
      have hwu : u.waits ref n = true := by rw [State.waits_append ha, hw]; rfl
      refine ⟨?_, ⟨⟨l, hl.cons n, hd, hn, ha⟩, ?_, ?_⟩, h3, h4⟩
      · rw [h1]; congr 3
        apply List.map_congr_left
        intro y _
        by_cases hy : y.node = n
        · simp [hy, hwu]
        · simp [hy]
      · intro m hm
        rcases List.mem_cons.1 hm with rfl | hm
        · exact .inl hwu
        · exact hroom m hm
      · rw [hc]; simp [hwu]
    · -- admitted
      have h' : (s.withAnswers (s.answers ++ [freshNotify ref t s.timeBase n])).record ref.slot = some r := h
      rw [he] at hu
      obtain ⟨h1, ⟨⟨l, hl, hd, hn, ha⟩, hroom, hc⟩, h3, h4⟩ := notifyRequests_spec t ref xs _ r h' hi u hu
      have hjoin := fun m hm => State.not_waits_of_append (s := s) (l := [n]) (t := t) (now := s.timeBase) rfl (hn m hm)
      have hwu : u.waits ref n = true := by
        rw [State.waits_append ha]
        simp [State.waits, Answer.isWaitingNotify_fresh]
      refine ⟨?_, ⟨⟨n :: l, hl.cons_cons n, List.nodup_cons.2 ⟨fun hm => (hjoin n hm).2 (by simp), hd⟩, ?_,
        by simpa using ha⟩, ?_, ?_⟩, fun hn => absurd hn hr, h4⟩
      · rw [h1]; change (s.setRecord _ _).slots = _
        congr 3
        apply List.map_congr_left
        intro y _
        by_cases hy : y.node = n
        · simp [hy, hwu]
        · simp [hy]
      · intro m hm
        rcases List.mem_cons.1 hm with rfl | hm
        · exact hw
        · exact (hjoin m hm).1
      · intro m hm
        rcases List.mem_cons.1 hm with rfl | hm
        · exact .inl hwu
        · exact hroom m hm
      · rw [hc]; simp [hwu]
    · -- refused
      rw [he, setMarker_of_record s h hi] at hu
      set s1 := (s.setRecord ref.slot { r with subscribers := markNode n true r.subscribers }).count .notifyMissed
        with hs1
      have h' : s1.record ref.slot = some { r with subscribers := markNode n true r.subscribers } :=
        State.record_setRecord_self s ref.slot _
      have hi' : s1.incarnation ref.slot = ref.incarnation := by
        rw [← hi]; exact State.incarnation_setRecord s ref.slot ref.slot _
      obtain ⟨h1, ⟨-, -, hc⟩, h3, h4⟩ := notifyRequests_spec t ref xs s1 _ h' hi' u hu
      have hr1 : s1.noRoom := hr
      have hau : u.answers = s.answers := h3 hr1
      have hwu : u.waits ref n = false := by simpa [State.waits, hau] using hw
      have hru : u.noRoom := by
        refine (State.noRoom_congr (s := s) hau ?_).2 hr
        rw [h4]; rfl
      refine ⟨?_, ⟨⟨[], by simp, by simp, by simp, by simpa using hau⟩, fun _ _ => .inr hru, ?_⟩, fun _ => hau, by rw [h4]; rfl⟩
      · rw [h1, hs1]
        change ((s.setRecord _ _).setRecord _ _).slots = _
        rw [State.setRecord_setRecord]
        congr 3
        simp only [markRefused, markNode, List.map_map]
        apply List.map_congr_left
        intro y _
        by_cases hy : y.node = n
        · simp [hy, hwu]
        · simp [hy]
      · rw [hc]
        simp [hwu, hs1, Counters.bump]

/-! ## Visible changes and record steps -/

/-- The markers a visible change leaves, over the record's own list. -/
theorem markRefused_self (ref : Ref) (u : State) (l : List Subscription) :
    markRefused ref (l.map (·.node)) u l = l.map fun y => { y with missed := y.missed || !u.waits ref y.node } := by
  apply List.map_congr_left
  intro y hy
  simp [List.mem_map_of_mem hy]

/-- A visible change of the record that slot `i` now holds (R10). -/
theorem visibleChange_spec {i : SlotIx} {r : Record} (h : s.record i = some r) :
    VisiblyChanged i r s (visibleChange i s) := by
  have hv : visibleChange i s = r.subscribers.foldl (fun u x => notifyRequest r.tag ⟨i, s.incarnation i⟩ x.node u)
      ((bumpChange (zoneOf r.tag) (s.setRecord i { r with revision := r.revision + 1 })).withLastTouched
        ⟨i, r.tag, r.revision + 1⟩) := by
    simp [visibleChange, h]
  rw [← List.foldl_map (f := fun x : Subscription => x.node)
    (g := fun u n => notifyRequest r.tag ⟨i, s.incarnation i⟩ n u)] at hv
  set s1 := (bumpChange (zoneOf r.tag) (s.setRecord i { r with revision := r.revision + 1 })).withLastTouched
        ⟨i, r.tag, r.revision + 1⟩ with hs1
  have hr1 : s1.record i = some { r with revision := r.revision + 1 } := State.record_setRecord_self s i _
  have hi1 : s1.incarnation i = s.incarnation i := State.incarnation_setRecord s i i _
  obtain ⟨h1, h2, -, h4⟩ := notifyRequests_spec r.tag ⟨i, s.incarnation i⟩ _ s1 _ hr1 hi1 _ hv
  refine ⟨?_, ?_, ?_, ⟨?_, h2.room, h2.counted⟩, ?_⟩
  · rw [h1]
    change ((s.setRecord _ _).setRecord _ _).slots = _
    rw [State.setRecord_setRecord]
    congr 3
    exact markRefused_self _ _ _
  · rw [h4]; rfl
  · rw [h4]; rfl
  · exact h2.joined
  · rw [h4]; rfl

theorem VisiblyChanged.of_setRecord {i : SlotIx} {r0 r : Record} {u : State}
    (h : VisiblyChanged i r (s.setRecord i r0) u) : VisiblyChanged i r s u := by
  obtain ⟨h1, h2, h3, ⟨a, b, c⟩, h5⟩ := h
  simp only [State.incarnation_setRecord, State.setRecord_setRecord] at *
  refine ⟨h1, ?_, h3, ⟨?_, b, ?_⟩, ?_⟩
  · rw [h2]; rfl
  · exact a
  · exact c
  · rw [h5]; rfl

/-- What a step on a record does (R9, R10, R12). -/
theorem recordStep_spec {i : SlotIx} {r : Record} (h : s.record i = some r) (f : Record → Record) :
    Becomes i r (f r) s (recordStep i f s) := by
  unfold Becomes recordStep
  rw [h]
  simp only
  split
  · rfl
  · exact VisiblyChanged.of_setRecord s (visibleChange_spec _ (State.record_setRecord_self s i (f r)))

/-! ## Creation -/

/-- Where a new directory entry stands (R26). -/
theorem insertEntry_spec (e : DirEntry) : ∀ l : List DirEntry, ∃ below above, l = below ++ above ∧
    insertEntry e l = below ++ e :: above ∧ (∀ d ∈ below, ¬ e.tag < d.tag) ∧ ∀ d ∈ above.head?, e.tag < d.tag
  | [] => ⟨[], [], rfl, rfl, by simp, by simp⟩
  | d :: ds => by
    by_cases h : e.tag < d.tag
    · exact ⟨[], d :: ds, rfl, by simp [insertEntry, h], by simp, by simpa using h⟩
    · obtain ⟨below, above, h1, h2, h3, h4⟩ := insertEntry_spec e ds
      refine ⟨d :: below, above, by simp [h1], by simp [insertEntry, h, h2], ?_, h4⟩
      exact List.forall_mem_cons.2 ⟨h, h3⟩

/-- What a creation does (R15). -/
theorem createRecord_spec (n : NewRecord) {i : SlotIx} {rest : List SlotIx} (h : s.freeQueue = i :: rest) :
    Created i ((n.fields s.timeBase).renewed (s.zone (zoneOf n.tag)).lease s.timeBase) s (createRecord n s) := by
  have ht : ((n.fields s.timeBase).renewed (s.zone (zoneOf n.tag)).lease s.timeBase).tag = n.tag := by
    unfold Record.renewed; split <;> rfl
  simp only [createRecord, h]
  refine ⟨h, rfl, ?_, ?_, ?_, rfl⟩
  · rw [ht]; exact insertEntry_spec _ _
  · rw [ht]
    simp [bumpChange, countUp, State.setZone, State.zone]
  · rw [ht]; rfl

/-! ## Retirement -/

theorem returnSubscription_head {i : SlotIx} {r : Record} {x : Subscription} {l : List Subscription}
    (h : s.record i = some r) (hl : r.subscribers = x :: l) :
    returnSubscription i x.node s = (s.setRecord i { r with subscribers := l }).withPoolFree (s.poolFree + 1) := by
  simp [returnSubscription, h, hl]

/-- What the GONE requests and the return of the entries of a retiring record do (R17, R114). -/
theorem goneRequests_spec (t : Tag) (i : SlotIx) (inc : Byte) : ∀ (xs : List Subscription) (s : State) (r : Record),
    s.record i = some r → s.incarnation i = inc → r.subscribers.map (·.node) = xs.map (·.node) →
    ∀ u, u = xs.foldl (goneRequest t i) s →
      u.slots = (s.setRecord i { r with subscribers := [] }).slots ∧
      Requested ⟨i, inc⟩ t (xs.map (·.node)) s u ∧ (s.noRoom → u.answers = s.answers) ∧
      u = { s with
        slots := u.slots, answers := u.answers, counters := u.counters, poolFree := s.poolFree + xs.length }
  | [], s, r, h, _, hx, u, hu => by
    subst hu
    have : r.subscribers = [] := by simpa using hx
    refine ⟨?_, ⟨⟨[], by simp, by simp, by simp, by simp⟩, by simp, rfl⟩, fun _ => rfl, rfl⟩
    have hr : { r with subscribers := [] } = r := by rw [← this]
    rw [hr]
    exact (congrArg State.slots (State.setRecord_record _ h)).symm
  | x :: xs, s, r, h, hi, hx, u, hu => by
    rw [List.foldl_cons] at hu
    -- the record and the request after which the head's entry is returned
    obtain ⟨y, l, hl, hy, hlm⟩ : ∃ y l, r.subscribers = y :: l ∧ y.node = x.node ∧
        l.map (·.node) = xs.map (·.node) := by
      cases hr : r.subscribers with
      | nil => rw [hr] at hx; simp at hx
      | cons y l => rw [hr] at hx; simp only [List.map_cons, List.cons.injEq] at hx; exact ⟨y, l, rfl, hx.1, hx.2⟩
    set v := notifyRequest t ⟨i, inc⟩ x.node s with hv
    obtain ⟨h1, ⟨⟨la, hla, hda, hna, ha⟩, hroom, hc⟩, h3, h4⟩ :=
      notifyRequests_spec t ⟨i, inc⟩ [x.node] s r h hi v rfl
    have hvr : v.record i = some { r with subscribers := markRefused ⟨i, inc⟩ [x.node] v r.subscribers } := by
      rw [State.record_congr h1]; exact State.record_setRecord_self s i _
    have hvi : v.incarnation i = inc := by
      rw [State.incarnation_congr h1, ← hi]; exact State.incarnation_setRecord s i i _
    have hg : goneRequest t i s x = (v.setRecord i
        { r with subscribers := markRefused ⟨i, inc⟩ [x.node] v l }).withPoolFree (v.poolFree + 1) := by
      have hh := returnSubscription_head v hvr (x := { y with
        missed := y.missed || (decide (y.node ∈ [x.node]) && !v.waits ⟨i, inc⟩ y.node) })
        (l := markRefused ⟨i, inc⟩ [x.node] v l) (by simp [hl, markRefused])
      simp only [hy] at hh
      rw [← hh, hv, ← hi]; rfl
    rw [hg] at hu
    set w := (v.setRecord i { r with subscribers := markRefused ⟨i, inc⟩ [x.node] v l }).withPoolFree (v.poolFree + 1)
    have hwr : w.record i = some { r with subscribers := markRefused ⟨i, inc⟩ [x.node] v l } :=
      State.record_setRecord_self v i _
    have hwi : w.incarnation i = inc := by rw [← hvi]; exact State.incarnation_setRecord v i i _
    have hwm : ({ r with subscribers := markRefused ⟨i, inc⟩ [x.node] v l } : Record).subscribers.map (·.node) =
        xs.map (·.node) := by
      rw [← hlm]; simp [markRefused]
    obtain ⟨g1, ⟨⟨lb, hlb, hdb, hnb, hb⟩, groom, gc⟩, g3, g4⟩ := goneRequests_spec t i inc xs w _ hwr hwi hwm u hu
    have hwt : w.timeBase = s.timeBase := by
      change v.timeBase = _; rw [h4]
    have hwa : w.answers = v.answers := rfl
    have hjoin := fun m hm => State.not_waits_of_append (s := s) (u := w) (hwa.trans ha) (hnb m hm)
    have hall : u.answers = s.answers ++ (la ++ lb).map (freshNotify ⟨i, inc⟩ t s.timeBase) := by
      rw [hb, hwa, ha, hwt, List.map_append, List.append_assoc]
    have hvw : ∀ m, v.waits ⟨i, inc⟩ m = true → u.waits ⟨i, inc⟩ m = true := by
      intro m hm; rw [State.waits_append (s := v) hb, hm]; rfl
    have hport : u.port = v.port := by rw [g4]; rfl
    have hnr : v.noRoom → u.noRoom := fun hn => State.noRoom_append hn hb hport
    have huv : u.waits ⟨i, inc⟩ x.node = v.waits ⟨i, inc⟩ x.node := by
      rcases hroom x.node (by simp) with hw | hn
      · rw [hw, hvw _ hw]
      · have : u.answers = v.answers := g3 ((State.noRoom_congr (s := v) rfl rfl).2 hn)
        simp [State.waits, this]
    refine ⟨?_, ⟨⟨la ++ lb, ?_, List.nodup_append.2 ⟨hda, hdb, fun a h b h' e => (hjoin b h').2 (e ▸ h)⟩,
      fun m hm => (List.mem_append.1 hm).elim (hna m) fun h => (hjoin m h).1, hall⟩, ?_, ?_⟩, ?_, ?_⟩
    · rw [g1]
      change ((v.setRecord _ _).setRecord _ _).slots = _
      rw [State.setRecord_setRecord]
      simp only [State.setRecord, State.setSlot, State.withSlots]
      rw [hvi, hi, h1]
      simp [State.setRecord, State.setSlot, State.withSlots]
    · simpa using hla.append hlb
    · intro m hm
      rw [List.map_cons, List.mem_cons] at hm
      rcases hm with rfl | hm
      · exact (hroom _ (by simp)).imp (hvw _) hnr
      · exact groom m hm
    · have hwc : w.counters = v.counters := rfl
      rw [gc, hwc, hc]
      simp only [List.map_cons, List.filter_cons, List.filter_nil, huv]
      cases v.waits ⟨i, inc⟩ x.node <;> simp [Function.iterate_succ_apply]
    · intro hn
      have hva : v.answers = s.answers := h3 hn
      have : v.noRoom := (State.noRoom_congr (s := s) hva (by rw [h4])).2 hn
      rw [g3 this, hwa, hva]
    · refine g4.trans (State.mk.injEq .. |>.mpr
        ⟨rfl, (congrArg State.freeQueue h4 :), (congrArg State.lastTouched h4 :), (congrArg State.directory h4 :),
          (congrArg State.zones h4 :), (congrArg State.timeBase h4 :), (congrArg State.deferred h4 :), ?_, (congrArg State.port h4 :),
          rfl, (congrArg State.transmitter h4 :), (congrArg State.host h4 :), (congrArg State.settings h4 :), rfl,
          (congrArg State.maint h4 :), (congrArg State.straps h4 :), (congrArg State.choices h4 :), (congrArg State.pending h4 :)⟩)
      have : v.poolFree = s.poolFree := (congrArg State.poolFree h4 :)
      change v.poolFree + 1 + xs.length = _
      rw [this, List.length_cons]; omega

/-- What a retirement does (R17). -/
theorem retireSlot_spec {i : SlotIx} {r : Record} (h : s.record i = some r) : Retired i r s (retireSlot i s) := by
  set s1 := countDown (zoneOf r.tag) (s.withDirectory (s.directory.filter fun e => e ≠ ⟨r.tag, i⟩)) with hs1
  set s2 := r.subscribers.foldl (goneRequest r.tag i) s1 with hs2
  have he : retireSlot i s = (bumpChange (zoneOf r.tag) (freeSlot i s2)).withLastTouched ⟨i, r.tag, r.revision + 1⟩ := by
    simp [retireSlot, h, hs1, hs2]
  obtain ⟨g1, g2, -, g4⟩ := goneRequests_spec r.tag i (s.incarnation i) r.subscribers s1 r h rfl rfl s2 hs2
  have hi2 : s2.incarnation i = s.incarnation i := by
    rw [State.incarnation_congr g1]; exact State.incarnation_setRecord s1 i i _
  rw [he]
  refine ⟨?_, ?_, ?_, ?_, rfl, ?_, ⟨?_, ?_, ?_⟩, ?_⟩
  · change (freeSlot i s2).slots = _
    simp only [freeSlot, State.setSlot, State.withSlots, State.withFreeQueue]
    rw [g1, hi2]
    simp [State.setRecord, State.setSlot, State.withSlots, hs1, countDown, State.setZone, State.withZones,
      State.withDirectory]
  · change s2.directory = _; rw [g4]; rfl
  · change s2.freeQueue ++ [i] = _; rw [g4]; rfl
  · have hz : s2.zones = s1.zones := by rw [g4]
    simp only [bumpChange, State.setZone, State.withZones, State.withLastTouched, State.zone]
    change (s2.zones.set _ _ _) = _
    simp only [freeSlot, State.setSlot, State.withSlots, State.withFreeQueue, hz]
    simp [hs1, countDown, State.setZone, State.withZones, State.withDirectory, State.zone]
  · change s2.poolFree = _; rw [g4]; rfl
  · exact g2.joined
  · exact g2.room
  · exact g2.counted
  · simp only [bumpChange, freeSlot, State.setSlot, State.withSlots, State.withFreeQueue, State.setZone, State.withZones,
      State.withLastTouched]
    rw [g4]; rfl

end Sys2Proof.Machine
end

