-- ==== Sys2Proof/Laws/Line.lean ====
section
/-! SUPPORT. Bits and numbers, fields read back from where they stand, and the check register (section 8.2). -/

namespace Sys2Proof.Machine

theorem natOfBits_append (l m : List Bool) : natOfBits (l ++ m) = natOfBits l * 2 ^ m.length + natOfBits m := by
  unfold natOfBits
  rw [List.foldl_append]
  generalize l.foldl (fun a b => 2 * a + b.toNat) 0 = a
  induction m using List.reverseRecOn with
  | nil => simp
  | append_singleton m b ih =>
    rw [List.foldl_append, List.foldl_append, ih]
    simp [pow_succ]; ring

@[simp] theorem bitsOf_length {w : Nat} (x : BitVec w) : (bitsOf x).length = w := by simp [bitsOf]

theorem natOfBits_bitsOf {w : Nat} (x : BitVec w) : natOfBits (bitsOf x) = x.toNat := by
  have key : ∀ k, k ≤ w → natOfBits ((List.range k).map fun i => x.getMsbD i) = x.toNat / 2 ^ (w - k) := by
    intro k hk
    induction k with
    | zero => simp [natOfBits, Nat.div_eq_of_lt x.isLt]
    | succ k ih =>
      rw [List.range_succ, List.map_append, natOfBits_append, ih (by omega)]
      have h1 : x.getMsbD k = x.toNat.testBit (w - 1 - k) := by
        simp [BitVec.getMsbD, BitVec.getLsbD]; omega
      have h2 : w - k = (w - (k + 1)) + 1 := by omega
      have h3 : w - 1 - k = w - (k + 1) := by omega
      simp only [List.map_cons, List.map_nil, List.length_singleton, pow_one, h1, h3, natOfBits, List.foldl_cons,
        List.foldl_nil]
      rw [h2, pow_succ, ← Nat.div_div_eq_div_mul, Nat.testBit_eq_decide_div_mod_eq]
      set y := x.toNat / 2 ^ (w - (k + 1))
      have : y % 2 = 0 ∨ y % 2 = 1 := by omega
      rcases this with h | h <;> simp [h] <;> omega
  have := key w le_rfl
  rw [Nat.sub_self, pow_zero, Nat.div_one] at this
  exact this

/-- A field is read back from where its bits stand. -/
theorem fieldAt_bitsOf {w : Nat} (a : List Bool) (x : BitVec w) (c : List Bool) (i : Nat) (h : a.length = i) :
    fieldAt (a ++ (bitsOf x ++ c)) i w = x := by
  subst h
  unfold fieldAt
  rw [List.drop_left, List.take_left' (bitsOf_length x), natOfBits_bitsOf]
  simp

/-- A payload is read back from where its bits stand. -/
theorem payloadAt_flatMap (p : List Byte) (a c : List Bool) (i : Nat) (h : a.length = i) :
    payloadAt (a ++ (p.flatMap bitsOf ++ c)) i p.length = p := by
  induction p generalizing a i with
  | nil => rfl
  | cons x p ih =>
    simp only [List.flatMap_cons, List.length_cons, payloadAt, List.append_assoc]
    rw [fieldAt_bitsOf _ _ _ _ h]
    have := ih (a ++ bitsOf x) (i + 8) (by simp [h])
    rw [List.append_assoc] at this
    rw [this]

/-- The bits that the check covers (section 8.2, R119). -/
theorem Frame.bodyBits_length (f : Frame) : f.bodyBits.length = 68 + 8 * f.payload.length := by
  have : ∀ p : List Byte, (p.flatMap bitsOf).length = 8 * p.length := by
    intro p
    induction p with
    | nil => rfl
    | cons x p ih => rw [List.flatMap_cons, List.length_append, ih]; simp; omega
  simp only [Frame.bodyBits, List.length_append, bitsOf_length, this]

/-- The check register loses nothing: bit 0 of its next value tells whether the polynomial was added (R119). -/
theorem crcStep_injective (b : Bool) {r r' : BitVec 16} (h : crcStep r b = crcStep r' b) : r = r' := by
  have h0 : ∀ q : BitVec 16, (crcStep q b).getLsbD 0 = (q.msb ^^ b) := by
    intro q; unfold crcStep; split <;> simp_all
  have hm : r.msb = r'.msb := by
    have := h0 r; rw [h, h0 r'] at this
    cases b <;> simpa using this.symm
  have hs : r <<< 1 = r' <<< 1 := by
    unfold crcStep at h
    rw [hm] at h
    split at h
    · have := congrArg (· ^^^ 0x1021#16) h
      simpa [BitVec.xor_assoc] using this
    · exact h
  apply BitVec.eq_of_getLsbD_eq
  intro k hk
  by_cases hk' : k = 15
  · subst hk'
    have e : ∀ q : BitVec 16, q.msb = q.getLsbD 15 := fun q => by simp [BitVec.msb_eq_getLsbD_last]
    rw [← e, ← e, hm]
  · have := congrArg (fun x => x.getLsbD (k + 1)) hs
    simp only [BitVec.getLsbD_shiftLeft] at this
    have hk2 : k + 1 < 16 := by omega
    simpa [hk2] using this

end Sys2Proof.Machine
end

