-- ==== Sys2Proof/Laws/Bus.lean ====
section
/-! SUPPORT. Markers and discards of the answer queue, the readings of the line, and the frames that the port takes from a
node. -/

namespace Sys2Proof.Machine

/-! ## Markers and discards -/

/-- Every slot after the marker of one subscription was set or cleared (R108). -/
theorem setMarker_slot (ref : Ref) (n : Addr) (m : Bool) (s : State) (i : SlotIx) :
    (setMarker ref n m s).slot i = ⟨s.incarnation i, (s.record i).map fun r =>
      if i = ref.slot ∧ s.incarnation i = ref.incarnation then
        { r with subscribers := r.subscribers.map fun x => if x.node = n then ⟨x.node, m⟩ else x }
      else r⟩ := by
  have e : ∀ j, s.slot j = ⟨s.incarnation j, s.record j⟩ := fun _ => rfl
  by_cases h3 : i = ref.slot
  · subst h3
    simp only [true_and]
    unfold setMarker
    cases h : s.record ref.slot with
    | none => rw [e, h]; rfl
    | some r =>
      by_cases h2 : s.incarnation ref.slot = ref.incarnation
      · simp only [h2, if_true, State.setRecord, State.slot_setSlot_self]; rfl
      · simp only [h2, if_false]; rw [e, h]; rfl
  · have : (setMarker ref n m s).slot i = s.slot i := by
      unfold setMarker
      split
      · split
        · rw [State.setRecord, State.slot_setSlot, if_neg h3]
        · rfl
      · rfl
    rw [this, e]
    simp [h3]

/-- A marker is a field of a slot. -/
theorem setMarker_frame (ref : Ref) (n : Addr) (m : Bool) (s : State) :
    ∃ x, setMarker ref n m s = { s with slots := x } := by
  unfold setMarker
  split
  · split
    · exact ⟨_, rfl⟩
    · exact ⟨s.slots, rfl⟩
  · exact ⟨s.slots, rfl⟩

theorem markUnsent_frame (a : Answer) (s : State) : ∃ x, markUnsent s a = { s with slots := x } := by
  unfold markUnsent
  split
  · exact setMarker_frame _ _ _ _
  · exact ⟨s.slots, rfl⟩

/-- Discards change markers alone. -/
theorem markUnsents_frame : ∀ (l : List Answer) (s : State), ∃ x, l.foldl markUnsent s = { s with slots := x }
  | [], s => ⟨s.slots, rfl⟩
  | a :: l, s => by
    obtain ⟨x, hx⟩ := markUnsent_frame a s
    obtain ⟨y, hy⟩ := markUnsents_frame l (markUnsent s a)
    exact ⟨y, by rw [List.foldl_cons, hy, hx]⟩

theorem unsent_nil (s : State) (i : SlotIx) : State.unsent [] s i = s.slot i := by
  show _ = (⟨s.incarnation i, s.record i⟩ : Slot)
  simp [State.unsent]

theorem markUnsent_slot (a : Answer) (s : State) (i : SlotIx) : (markUnsent s a).slot i = State.unsent [a] s i := by
  unfold markUnsent
  split
  · rename_i ref m hb
    rw [setMarker_slot]
    simp only [State.unsent, List.any_cons, List.any_nil, Bool.or_false, Answer.notifies, hb]
    congr 2
    funext r
    have key : ∀ x : Subscription, (decide (ref = ⟨i, s.incarnation i⟩) && decide (a.destination = x.node)) = true ↔
        (i = ref.slot ∧ s.incarnation i = ref.incarnation) ∧ x.node = a.destination := by
      intro x
      rw [Bool.and_eq_true, decide_eq_true_eq, decide_eq_true_eq]
      constructor
      · rintro ⟨h1, h2⟩; rw [h1]; exact ⟨⟨rfl, rfl⟩, h2.symm⟩
      · rintro ⟨⟨h1, h3⟩, h2⟩; refine ⟨?_, h2.symm⟩; rw [h3, h1]
    by_cases h : i = ref.slot ∧ s.incarnation i = ref.incarnation
    · rw [if_pos h]
      congr 1
      apply List.map_congr_left
      rintro ⟨xn, xm⟩ -
      by_cases h2 : xn = a.destination
      · rw [(key ⟨xn, xm⟩).2 ⟨h, h2⟩]; simp [h2]
      · have : (decide (ref = ⟨i, s.incarnation i⟩) && decide (a.destination = xn)) = false := by
          rw [← Bool.not_eq_true, key ⟨xn, xm⟩]; tauto
        rw [this]; simp [h2]
    · rw [if_neg h]
      have : (r.subscribers.map fun x => { x with missed := x.missed ||
          (decide (ref = ⟨i, s.incarnation i⟩) && decide (a.destination = x.node)) }) = r.subscribers := by
        conv_rhs => rw [← List.map_id r.subscribers]
        apply List.map_congr_left
        rintro x -
        have : (decide (ref = ⟨i, s.incarnation i⟩) && decide (a.destination = x.node)) = false := by
          rw [← Bool.not_eq_true, key]; tauto
        rw [this]; simp
      rw [this]
  · rename_i hb
    have : ∀ x, Answer.notifies ⟨i, s.incarnation i⟩ x a = false := by
      intro x; unfold Answer.notifies; split
      · exact absurd ‹_› (hb _ _)
      · rfl
    rw [← unsent_nil]
    simp [State.unsent, this]

theorem unsent_cons (a : Answer) (l : List Answer) (s u : State) (i : SlotIx) (h : u.slot i = State.unsent [a] s i) :
    State.unsent l u i = State.unsent (a :: l) s i := by
  have h1 : u.incarnation i = s.incarnation i := by rw [State.incarnation, h]; rfl
  have h2 : u.record i = _ := congrArg Slot.record h
  simp only [State.unsent, h1, h2, Option.map_map]
  congr 2
  funext r
  simp [Bool.or_assoc]

/-- Every slot after entries were discarded unsent (R112). -/
theorem markUnsents_slot : ∀ (l : List Answer) (s : State) (i : SlotIx),
    (l.foldl markUnsent s).slot i = State.unsent l s i
  | [], s, i => (unsent_nil s i).symm
  | a :: l, s, i => by
    rw [List.foldl_cons, markUnsents_slot l, unsent_cons]
    exact markUnsent_slot a s i

/-- What going OFFLINE does (R133). -/
theorem goOffline_spec (s : State) : (∃ x, goOffline s =
    { s with
      slots := x
      answers := []
      port := s.stoppedPort }) ∧
    ∀ i, (goOffline s).slot i = State.unsent s.answers s i := by
  obtain ⟨x, hx⟩ := markUnsents_frame s.answers s
  refine ⟨⟨x, ?_⟩, fun i => markUnsents_slot s.answers s i⟩
  unfold goOffline discardAll
  rw [hx]; rfl

/-! ## Frames from a node -/

theorem confirm_frame (n : Addr) (t : Tag) (q : Byte) (c : OutcomeCode) (s : State) :
    ∃ a k, confirm n t q c s = { s with answers := a, counters := k } := by
  unfold confirm
  split_ifs
  · exact ⟨_, _, rfl⟩
  · exact ⟨_, _, rfl⟩

theorem answered_frame (n : Addr) (t : Tag) (q fl : Byte) (c : OutcomeCode) (s : State) :
    ∃ a k, State.answered n t q fl c s = { s with answers := a, counters := k } := by
  unfold State.answered
  split_ifs
  · exact confirm_frame _ _ _ _ _
  · exact ⟨s.answers, s.counters, rfl⟩

/-! ### Readings of the line -/

theorem passQuiet_zero (s : State) : passQuiet 0 s = s := rfl

/-- Quiet with no frame under way is waited for (R132). -/
theorem passQuiet_of_none {s : State} (h : s.port.underWay = none) (n : Nat) :
    passQuiet (n + 1) s = waitQuiet (n + 1) s := by
  simp only [passQuiet, h]

/-- The first quiet bit time ends a frame that is under way (R117). -/
theorem passQuiet_of_some {s : State} {l : List Bool} (h : s.port.underWay = some l) (n : Nat) :
    passQuiet (n + 1) s = waitQuiet n (closeFrame 0 (parseFrame l) s) := by
  simp only [passQuiet, h]

theorem readLine_readingOf (b : Bool) (s : State) : readLine s (readingOf b) = takeBit b s := by cases b <;> rfl

theorem foldl_readingOf (l : List Bool) (s : State) :
    (l.map readingOf).foldl readLine s = l.foldl (fun u b => takeBit b u) s := by
  rw [List.foldl_map]; congr 1; funext u b; exact readLine_readingOf b u

@[simp] theorem withBit_some (b : Bool) (n : Nat) (l : List Bool) : withBit b n (some l) = some (l ++ [b]) := rfl

theorem withBit_none (b : Bool) (n : Nat) : withBit b n none = if 11 ≤ n then some [b] else none := rfl

/-- Driven bits go on with the frame under way (R117). -/
theorem takeBits_of_some {s : State} {l0 l : List Bool} (h : s.port.underWay = some l0) (hl : l ≠ []) :
    l.foldl (fun u b => takeBit b u) s = s.withPort
      { s.port with quietTime := 0, lineTime := s.port.lineTime + l.length, underWay := some (l0 ++ l) } := by
  induction l using List.reverseRecOn with
  | nil => exact absurd rfl hl
  | append_singleton l b ih =>
    rw [List.foldl_append, List.foldl_cons, List.foldl_nil]
    by_cases e : l = []
    · subst e; simp only [List.foldl_nil, takeBit, h, withBit_some]; rfl
    · rw [ih e]
      simp only [takeBit, State.withPort_port, withBit_some, List.append_assoc, List.length_append, List.length_singleton,
        Nat.add_assoc]
      rfl

/-- Driven bits on the idle line start a frame (R117). -/
theorem takeBits_of_idle {s : State} {l : List Bool} (h : s.port.underWay = none) (hq : 11 ≤ s.port.quietTime)
    (hl : l ≠ []) : l.foldl (fun u b => takeBit b u) s = s.withPort
      { s.port with quietTime := 0, lineTime := s.port.lineTime + l.length, underWay := some l } := by
  obtain ⟨b, l, rfl⟩ := List.exists_cons_of_ne_nil hl
  have ht : takeBit b s = s.withPort
      { s.port with quietTime := 0, lineTime := s.port.lineTime + 1, underWay := some [b] } := by
    rw [takeBit, h, withBit_none, if_pos hq]
  rw [List.foldl_cons, ht]
  by_cases e : l = []
  · subst e; rfl
  · rw [takeBits_of_some (l0 := [b]) rfl e]
    simp only [State.withPort, List.length_cons, List.cons_append, List.nil_append, Nat.add_assoc, Nat.add_comm 1]

/-- Driven bits that begin before the line is idle start no frame (R117). -/
theorem takeBits_of_busy {s : State} {l : List Bool} (h : s.port.underWay = none) (hq : s.port.quietTime < 11)
    (hl : l ≠ []) : l.foldl (fun u b => takeBit b u) s = s.withPort
      { s.port with quietTime := 0, lineTime := s.port.lineTime + l.length, underWay := none } := by
  induction l using List.reverseRecOn with
  | nil => exact absurd rfl hl
  | append_singleton l b ih =>
    rw [List.foldl_append, List.foldl_cons, List.foldl_nil]
    by_cases e : l = []
    · subst e
      rw [List.foldl_nil, takeBit, h, withBit_none, if_neg (by omega)]; rfl
    · rw [ih e]; simp only [takeBit, State.withPort_port, List.length_append, List.length_singleton,
        Nat.add_assoc]
      rfl

/-- What ends an attempt (R129; log 12). -/
theorem attemptVerdict_lost {f : Frame} {k : Nat} : attemptVerdict f k .zero = .lost ↔ f.lostAt k := by
  unfold attemptVerdict Frame.lostAt
  cases f.bits[k]? with
  | none => simp
  | some d => cases d <;> simp [compareBit]

theorem attemptVerdict_fault {f : Frame} {k : Nat} {x : Reading} : attemptVerdict f k x = .fault ↔ f.faultAt k x := by
  unfold attemptVerdict Frame.faultAt
  cases f.bits[k]? with
  | none => simp
  | some d => cases d <;> cases x <;> simp [compareBit]

theorem Frame.bits_length (f : Frame) : f.bits.length = 84 + 8 * f.payload.length := by
  rw [Frame.bits, List.length_append, Frame.bodyBits_length, bitsOf_length]; omega

/-- The length field of bits that begin as a frame does, or of enough of its bits (section 8.2). -/
theorem fieldAt_length (f : Frame) (l : List Bool) : fieldAt (f.bits ++ l) 64 4 = BitVec.ofNat 4 f.payload.length := by
  have hs : f.bits ++ l = (bitsOf f.destination ++ bitsOf f.source ++ bitsOf f.kind ++ bitsOf f.tag ++
      bitsOf f.sequence ++ bitsOf f.flags ++ bitsOf f.code) ++ (bitsOf (BitVec.ofNat 4 f.payload.length) ++
        (f.payload.flatMap bitsOf ++ bitsOf (crcOf f.bodyBits) ++ l)) := by
    simp [Frame.bits, Frame.bodyBits]
  rw [hs, fieldAt_bitsOf _ _ _ _ (by simp)]

/-- A frame that ends short fails check 1 (R118, R124). -/
theorem parseFrame_take {f : Frame} (h : f.payload.length ≤ 8) {k : Nat} (hk : k < f.bits.length) :
    parseFrame (f.bits.take k) = none := by
  unfold parseFrame
  dsimp only
  rw [if_neg]
  rintro ⟨-, h2, -⟩
  have hl : (f.bits.take k).length = k := by rw [List.length_take]; omega
  rw [hl] at h2
  have e : fieldAt (f.bits.take k) 64 4 = BitVec.ofNat 4 f.payload.length := by
    have : fieldAt (f.bits.take k) 64 4 = fieldAt f.bits 64 4 := by
      unfold fieldAt
      rw [List.drop_take, List.take_take, Nat.min_eq_left (by omega)]
    rw [this, ← List.append_nil f.bits, fieldAt_length]
  rw [f.bits_length] at hk
  rw [e, BitVec.toNat_ofNat, Nat.mod_eq_of_lt (by omega)] at h2
  omega

/-- A frame that goes on behind its last bit fails check 1 (R118, R124). -/
theorem parseFrame_append {f : Frame} (h : f.payload.length ≤ 8) {l : List Bool} (hl : l ≠ []) :
    parseFrame (f.bits ++ l) = none := by
  unfold parseFrame
  dsimp only
  rw [if_neg]
  rintro ⟨-, h2, -⟩
  rw [fieldAt_length, BitVec.toNat_ofNat, Nat.mod_eq_of_lt (by omega), List.length_append, f.bits_length] at h2
  have := List.length_pos_iff.2 hl
  omega

/-- Without a stop pending the end of an attempt makes the transmitter free (R144 to R146). -/
theorem endAttempt_of_going {s : State} (h : s.port.stopPending = false) : endAttempt s = s.withTransmitter none := by
  unfold endAttempt
  simp [h]

/-- What a port in an ONLINE state makes of a reading that has ended an attempt in bit `k` of its frame: the bits go on
as a frame under way, or the reading ends them short (R117, R125, R129). -/
theorem seeReading_behind {s v : State} {f : Frame} {k : Nat} (hp : s.port.stopPending = false)
    (ho : s.port.state = .online) (hu : s.port.underWay = none) (hq : 11 ≤ s.port.quietTime)
    (hf : f.payload.length ≤ 8) (hk : k < f.bits.length) (hv : v.port = (leaveLine (f.bits.take k) s).port)
    (ht : v.transmitter = none) (x : Reading) :
    seeReading x v = { v with
      port :=
        match x with
        | .zero => s.leftPort (f.bits.take k ++ [false]) 0 (k + 1)
        | .one => s.leftPort (f.bits.take k ++ [true]) 0 (k + 1)
        | .quiet => s.leftPort [] (if k = 0 then s.port.quietTime + 1 else 1) (k + 1)
      counters :=
        if x = .quiet ∧ k ≠ 0 then { v.counters with rxBad := saturatingSucc v.counters.rxBad } else v.counters } := by
  have hl : (f.bits.take k).length = k := by rw [List.length_take]; omega
  have h0 : f.bits.take k = [] ↔ k = 0 := by rw [← List.length_eq_zero_iff, hl]
  have hL : v.listens = true := by
    simp [State.listens, State.reads, hv, leaveLine, State.withPort, ho, hp, ht]
  unfold seeReading
  rw [if_pos hL]
  by_cases e : k = 0
  · subst e
    have hv2 : v.port = s.port := by rw [hv]; simp [leaveLine, State.withPort, ← hu]
    cases x <;> simp [readLine, takeBit, passQuiet, waitQuiet, State.withPort, State.leftPort, withBit, hv2, hu, hq,
      ho]
  · have hv2 : v.port = { s.port with
        underWay := some (f.bits.take k), quietTime := 0, lineTime := s.port.lineTime + k } := by
      rw [hv]; simp only [leaveLine, State.withPort, h0, e, if_false, hl]
    cases x with
    | zero => simp [readLine, takeBit, State.withPort, State.leftPort, hv2, Nat.add_assoc]
    | one => simp [readLine, takeBit, State.withPort, State.leftPort, hv2, Nat.add_assoc]
    | quiet =>
      simp only [readLine]
      rw [passQuiet_of_some (l := f.bits.take k) (by rw [hv2]), parseFrame_take hf hk]
      simp [closeFrame, receive, waitQuiet, State.withPort, State.leftPort, hv2, e, Nat.add_assoc, State.count,
        Counters.bump, ho, State.withCounters]

/-- A whole frame on the idle line is received, once it has passed, by a port that listens (R117, R123). -/
theorem passFrame_of_listens {s : State} (h : s.listens = true) (hu : s.port.underWay = none) (f : Frame) :
    passFrame f s = receive (onLine f) (s.readPast (84 + 8 * f.payload.length)) := by
  have ht : s.transmitter = none := by
    simp only [State.listens, Bool.and_eq_true, Option.isNone_iff_eq_none] at h
    exact h.2
  rw [passFrame, if_pos h, Config.idleBits, passQuiet_of_none hu, closeFrame, f.bits_length, State.readPast, if_pos ht]
  rfl

theorem heard_eq (n : Nat) (s : State) : (s.readPast (84 + 8 * n)).count .rxGood = s.heard n := rfl

variable {s : State} {dst src : Addr}

/-- A whole frame that a port in an attempt takes late (R123; log 8). -/
theorem passFrame_of_attempt {s : State} (h : s.reads = true) (ht : s.transmitter ≠ none) (f : Frame) :
    passFrame f s = receive (onLine f) (s.readPast (84 + 8 * f.payload.length)) := by
  have : s.listens = false := by simp [State.listens, Option.isSome_iff_ne_none, ht]
  have e : s.readPast (84 + 8 * f.payload.length) = s := by rw [State.readPast, if_neg ht]
  rw [passFrame, this, h, e]
  rfl

/-- A whole frame reaches the checks of a port that reads and has no other frame under way (R117, R123). -/
theorem passFrame_of_reading (h : s.Hears dst src) (f : Frame) :
    passFrame f s = receive (onLine f) (s.readPast (84 + 8 * f.payload.length)) := by
  obtain ⟨⟨h1, h2, h3⟩, -⟩ := h
  have hr : s.reads = true := by simp [State.reads, h1, h2]
  by_cases ht : s.transmitter = none
  · exact passFrame_of_listens (by simp [State.listens, hr, ht]) (h3 ht) f
  · exact passFrame_of_attempt hr ht f

/-- A request frame that the port hears is dispatched (R124, R126). -/
theorem passFrame_of_hears (h : s.Hears dst src) (f : Frame) (hk : f.kind ∈ ([1, 2, 3, 4, 5] : List (BitVec 4)))
    (hd : f.destination = dst ∨ f.destination = 63 ∧ f.kind = 1) (hs : f.source = src) (hp : f.payload.length ≤ 8) :
    passFrame f s = dispatchFrame f (s.heard f.payload.length) := by
  rw [passFrame_of_reading h, onLine, if_pos hp, ← heard_eq]
  set u := s.readPast (84 + 8 * f.payload.length)
  obtain ⟨-, ⟨h3, h4, h5⟩, h6⟩ := h
  subst hs
  have k1 : kindTable.contains f.kind = true := by
    simp only [List.mem_cons, List.mem_nil_iff, or_false] at hk
    rcases hk with h | h | h | h | h <;> rw [h] <;> rfl
  have k2 : sentKinds.contains f.kind = false := by
    simp only [List.mem_cons, List.mem_nil_iff, or_false] at hk
    rcases hk with h | h | h | h | h <;> rw [h] <;> rfl
  have hc : u.checkFrame f = .dispatched := by
    have ho : u.port.ownAddress = s.port.ownAddress := by simp only [u, State.readPast]; split <;> rfl
    simp only [State.checkFrame, k1, k2, ho]
    rw [if_neg (by rintro (g | g | g); exacts [h3 g, h4 g, by simp at g]), if_neg h5,
      if_neg (by rcases hd with hd | hd <;> simp [hd, h6.1]),
      if_neg (by
        rintro (g | g)
        · simp at g
        · rcases hd with hd | hd
          · exact h6.2 (hd ▸ g.1)
          · exact g.2 hd.2)]
  simp only [receive, hc]

theorem exec_publish_of_hears (h : s.Hears s.port.ownAddress src) (hd : dst = s.port.ownAddress ∨ dst = 63) (t : Tag)
    (q fl : Byte) (v : List Byte) (hv : v.length ≤ 8) :
    exec (.publish dst src t q fl v) s = .next (doPublish src t q fl v (s.heard v.length)) := by
  simp only [exec, execPublish]
  rw [passFrame_of_hears h _ (by simp) (hd.imp_right fun e => ⟨e, rfl⟩) rfl hv]; rfl

theorem exec_withdraw_of_hears (h : s.Hears dst src) (t : Tag) (q : Byte) :
    exec (.withdraw dst src t q) s = .next (doWithdraw src t q (s.heard 0)) := by
  simp only [exec, execWithdraw]
  rw [passFrame_of_hears h _ (by simp) (.inl rfl) rfl (by simp)]; rfl

theorem exec_subscribe_of_hears (h : s.Hears dst src) (t : Tag) (q : Byte) :
    exec (.subscribe dst src t q) s = .next (doSubscribe src t q (s.heard 0)) := by
  simp only [exec, execSubscribe]
  rw [passFrame_of_hears h _ (by simp) (.inl rfl) rfl (by simp)]; rfl

theorem exec_unsubscribe_of_hears (h : s.Hears dst src) (t : Tag) (q : Byte) :
    exec (.unsubscribe dst src t q) s = .next (doUnsubscribe src t q (s.heard 0)) := by
  simp only [exec, execUnsubscribe]
  rw [passFrame_of_hears h _ (by simp) (.inl rfl) rfl (by simp)]; rfl

theorem exec_query_of_hears (h : s.Hears dst src) (t : Tag) (v : List Byte) (hv : v.length ≤ 8) :
    exec (.query dst src t v) s = .next (doQuery src t v (s.heard v.length)) := by
  simp only [exec, execQuery]
  rw [passFrame_of_hears h _ (by simp) (.inl rfl) rfl hv]; rfl

end Sys2Proof.Machine
end

