-- ==== Sys2Proof/Laws/Commands.lean ====
section
/-! SUPPORT. The taking and completing of a host command, and the checks that name a record. -/

namespace Sys2Proof.Machine

variable {s : State}

/-- A head block that can be taken is decided and completed in the step (R155). -/
theorem takeCommand_of_canTake {k : HostKind} {b : Block} (h : s.canTake k b)
    (f : Block → State → OutcomeCode × List Word × State) :
    takeCommand k f s = completeCommand b k.entries (f b s).1 (f b s).2.1 (f b s).2.2 := by
  simp [takeCommand, h.1, h.2]

/-- Without a head block that can be taken, no command is taken (R154). -/
theorem takeCommand_of_none (h : s.takeable = none) (k : HostKind)
    (f : Block → State → OutcomeCode × List Word × State) : takeCommand k f s = s := by
  simp [takeCommand, h]

theorem State.findRecord_of_finds {t : Tag} {i : SlotIx} {r : Record} (h : s.Finds t i r) :
    s.findRecord t = .ok (i, r) := by
  have := h.named
  simp_all [State.findRecord, h.active, h.found, h.held]

theorem State.findRecord_badTag {t : Tag} (h : t = 0) : s.findRecord t = .error .badTag := by
  simp [State.findRecord, h]

theorem State.findRecord_noZone {t : Tag} (h : t ≠ 0) (hz : (s.zone (zoneOf t)).status = .disabled) :
    s.findRecord t = .error .noZone := by
  simp_all [State.findRecord]

theorem State.findRecord_noRecord {t : Tag} (h : t ≠ 0) (hz : (s.zone (zoneOf t)).status = .active)
    (hl : s.lookup t = none) : s.findRecord t = .error .noRecord := by
  simp_all [State.findRecord]

theorem State.frozen_iff (z : ZoneIx) : s.frozen z = true ↔ (s.zone z).freeze ≠ none := by
  simp [State.frozen, Option.isSome_iff_ne_none]

theorem State.frozen_eq_false {z : ZoneIx} (h : (s.zone z).freeze = none) : s.frozen z = false := by
  simp [State.frozen, h]

theorem zoneOfWord_of_lt {w : Word} {z : ZoneIx} (h : w.toNat = z.val) : zoneOfWord w = some z := by
  have : w.toNat < 16 := by rw [h]; exact z.isLt
  simp only [zoneOfWord, dif_pos this]
  exact congrArg some (Fin.ext h)

theorem zoneOfWord_of_large {w : Word} (h : 15 < w.toNat) : zoneOfWord w = none := by
  have : ¬ w.toNat < 16 := by omega
  simp [zoneOfWord, this]

theorem slotOfWord_of_lt {w : Word} {i : SlotIx} (h : w.toNat = i.val) : slotOfWord w = some i := by
  have : w.toNat < 512 := by rw [h]; exact i.isLt
  simp only [slotOfWord, dif_pos this]
  exact congrArg some (Fin.ext h)

theorem slotOfWord_of_large {w : Word} (h : 511 < w.toNat) : slotOfWord w = none := by
  have : ¬ w.toNat < 512 := by omega
  simp [slotOfWord, this]

/-- The sum of R47, zone by zone. -/
theorem State.quotaSum_eq : s.quotaSum =
    ((List.finRange 16).map fun y => if (s.zone y).status = .active then (s.zone y).quota else 0).sum := by
  unfold State.quotaSum
  congr 1
  apply List.ext_getElem
  · simp
  · intro k h1 h2
    simp [State.zone]

end Sys2Proof.Machine
end

