-- ==== Sys2Proof/Laws/Maint.lean ====
section
/-! SUPPORT. What the edges of MCLK do: one edge, a run of edges, and a whole frame up to its frame end. -/

namespace Sys2Proof.Machine

theorem shiftIn_getLsbD (x : MaintFrame) (b : Bool) (k : Nat) (hk : k < 48) :
    (shiftIn x b).getLsbD k = if k = 0 then b else x.getLsbD (k - 1) := by
  unfold shiftIn
  rw [BitVec.getLsbD_or, BitVec.getLsbD_shiftLeft, BitVec.getLsbD_setWidth, BitVec.getLsbD_ofBool]
  cases k with
  | zero => simp
  | succ k => simp; omega

theorem foldl_shiftIn_getLsbD (l : List Bool) : ∀ (x : MaintFrame) (k : Nat), k < 48 →
    (l.foldl shiftIn x).getLsbD k = if k < l.length then l.getD (l.length - 1 - k) false else x.getLsbD (k - l.length) := by
  induction l using List.reverseRecOn with
  | nil => intro x k _; simp
  | append_singleton l b ih =>
    intro x k hk
    rw [List.foldl_append, List.foldl_cons, List.foldl_nil, shiftIn_getLsbD _ _ _ hk]
    cases k with
    | zero => simp
    | succ k =>
      rw [if_neg (by omega), ih x _ (by omega)]
      simp only [List.length_append, List.length_singleton, Nat.add_sub_cancel, Nat.add_lt_add_iff_right]
      split_ifs with h
      · rw [List.getD_append _ _ _ _ (by omega)]; congr 1; omega
      · congr 1; omega

/-- The bits of a frame, sampled in their order, spell it (section 11.2). -/
theorem foldl_shiftIn_frameBits (f x : MaintFrame) : (frameBits f).foldl shiftIn x = f := by
  apply BitVec.eq_of_getLsbD_eq
  intro k hk
  have hl : (frameBits f).length = 48 := by simp [frameBits]
  rw [foldl_shiftIn_getLsbD _ _ _ hk, hl, if_pos hk]
  have h : 48 - 1 - k < (frameBits f).length := by omega
  rw [← List.getElem_eq_getD (h := h)]
  simp only [frameBits, List.getElem_map, List.getElem_range, BitVec.getMsbD]
  have : 48 - 1 - k < 48 := by omega
  simp only [this, decide_true, Bool.true_and]
  congr 1; omega

/-- The level on MDO once a rising edge has been seen: a clock that was still high fell just before it (log 17). -/
def mdoAtEdge (m : Maint) : Bool := if m.mclk then m.output.getMsbD m.position else m.mdo

/-- A rising edge with no timeout due (R172). -/
theorem seeEdge_of_clocked {s : State} (ht : s.timedOut = false) :
    seeEdge s = s.withMaint { s.maint with lastEdge := s.timeBase, mdo := mdoAtEdge s.maint, mclk := true } := by
  unfold seeEdge mdoAtEdge
  rw [ht]
  cases h : s.maint.mclk <;> simp [h, fallingEdge, State.withMaint]

/-- One bit that neither recovers nor ends a frame (R172). -/
theorem sampleBit_within {s : State} {b : Bool} (h : s.maint.position < 47)
    (hr : ¬ Config.alignmentOnes ≤ onesAfter s.maint.onesCount b) :
    sampleBit b s = s.withMaint
      { s.maint with
        position := s.maint.position + 1, shift := shiftIn s.maint.shift b
        onesCount := onesAfter s.maint.onesCount b } := by
  unfold sampleBit; exact (if_neg hr).trans (if_pos h)

/-- The 48th bit, without a recovery, comes to the frame end (R172, R173). -/
theorem sampleBit_last {s : State} {b : Bool} (h : ¬ s.maint.position < 47)
    (hr : ¬ Config.alignmentOnes ≤ onesAfter s.maint.onesCount b) :
    sampleBit b s = endFrame (shiftIn s.maint.shift b) (s.withMaint
      { s.maint with position := 0, shift := 0, onesCount := onesAfter s.maint.onesCount b }) := by
  unfold sampleBit; exact (if_neg hr).trans (if_neg h)

/-- The 64th 1 in a row recovers the alignment (R184). -/
theorem sampleBit_recovers {s : State} {b : Bool}
    (hr : Config.alignmentOnes ≤ onesAfter s.maint.onesCount b) : sampleBit b s = realign s := by
  unfold sampleBit; exact if_pos hr

/-- One edge that neither recovers nor ends a frame, with no timeout due (R172). -/
theorem clockEdge_within {s : State} {e : MclkEdge} (ht : s.timedOut = false) (h : s.maint.position < 47)
    (hr : ¬ 64 ≤ onesAfter s.maint.onesCount e.mdi) :
    clockEdge e s = s.withMaint
      { s.maint with
        position := s.maint.position + 1
        shift := shiftIn s.maint.shift e.mdi
        onesCount := onesAfter s.maint.onesCount e.mdi
        lastEdge := s.timeBase
        mdo := if e.falls then s.maint.output.getMsbD (s.maint.position + 1) else mdoAtEdge s.maint
        mclk := !e.falls } := by
  unfold clockEdge
  rw [seeEdge_of_clocked ht, sampleBit_within (by exact h) (by exact hr)]
  obtain ⟨b, falls⟩ := e
  cases falls <;> rfl

/-- No timeout is due between frames, nor right after an edge (R183). -/
theorem State.not_timedOut {s : State} (h : s.maint.position = 0 ∨ s.maint.lastEdge = s.timeBase) :
    s.timedOut = false := by
  rcases h with h | h <;> simp [State.timedOut, h]

/-- Edges, each with its fall, that neither recover nor end a frame, with no timeout due (R172); the last of them is named
apart, since it leaves its time and level. -/
theorem clockEdges_within : ∀ (l : List Bool) (b : Bool) (s : State), s.timedOut = false →
    s.maint.position + l.length < 47 → reachesRecovery s.maint.onesCount (l ++ [b]) = false →
    (l ++ [b]).foldl (fun u b => clockEdge ⟨b, true⟩ u) s = s.withMaint
      { s.maint with
        position := s.maint.position + (l.length + 1)
        shift := (l ++ [b]).foldl shiftIn s.maint.shift
        onesCount := (l ++ [b]).foldl onesAfter s.maint.onesCount
        lastEdge := s.timeBase
        mdo := s.maint.output.getMsbD (s.maint.position + (l.length + 1))
        mclk := false }
  | [], b, s, ht, h, hr => by
    simp only [List.nil_append, reachesRecovery, Bool.or_false, decide_eq_false_iff_not] at hr
    simp only [List.nil_append, List.foldl_cons, List.foldl_nil]
    rw [clockEdge_within ht (by simpa using h) hr]
    rfl
  | c :: l, b, s, ht, h, hr => by
    simp only [List.cons_append, reachesRecovery, Bool.or_eq_false_iff, decide_eq_false_iff_not] at hr
    simp only [List.length_cons] at h
    have e := clockEdge_within (e := ⟨c, true⟩) ht (by omega) hr.1
    have ht' : (clockEdge ⟨c, true⟩ s).timedOut = false := State.not_timedOut (.inr (by rw [e]; rfl))
    rw [List.cons_append, List.foldl_cons, clockEdges_within l b _ ht'
      (by rw [e]; simp only [State.withMaint_maint]; omega) (by rw [e]; exact hr.2), e]
    simp only [State.withMaint_maint, List.foldl_cons, List.length_cons]
    have h1 : s.maint.position + 1 + (l.length + 1) = s.maint.position + (l.length + 1 + 1) := by omega
    rw [h1]; rfl

theorem reachesRecovery_append (l m : List Bool) : ∀ n, reachesRecovery n (l ++ m) =
    (reachesRecovery n l || reachesRecovery (l.foldl onesAfter n) m) := by
  induction l with
  | nil => intro n; rfl
  | cons b l ih => intro n; simp only [List.cons_append, reachesRecovery, ih, List.foldl_cons, Bool.or_assoc]

/-- An edge that samples the 48th bit, without a recovery and with no timeout due, comes to the frame end (R172). -/
theorem clockEdge_last {s : State} {e : MclkEdge} (ht : s.timedOut = false) (h : ¬ s.maint.position < 47)
    (hr : ¬ 64 ≤ onesAfter s.maint.onesCount e.mdi) :
    clockEdge e s =
      let u := endFrame (shiftIn s.maint.shift e.mdi) (s.withMaint
        { s.maint with
          position := 0
          shift := 0
          onesCount := onesAfter s.maint.onesCount e.mdi
          lastEdge := s.timeBase
          mdo := mdoAtEdge s.maint
          mclk := true })
      if e.falls then fallingEdge u else u := by
  unfold clockEdge
  rw [seeEdge_of_clocked ht, sampleBit_last (by exact h) (by exact hr)]
  rfl

/-- A whole frame from its first bit, without a recovery in it, comes to its frame end (R172, R173). -/
theorem clockFrame_aligned {f : MaintFrame} {s : State} (h : s.aligned f) :
    clockFrame f s = fallingEdge (endFrame f (s.withMaint
      { s.maint with
        position := 0
        shift := 0
        onesCount := (frameBits f).foldl onesAfter s.maint.onesCount
        lastEdge := s.timeBase
        mdo := s.maint.output.getMsbD 47
        mclk := true })) := by
  obtain ⟨hp, hr⟩ := h
  obtain ⟨l, b, c, hl, hb⟩ : ∃ (l : List Bool) (b c : Bool), l.length = 46 ∧ frameBits f = (l ++ [b]) ++ [c] :=
    ⟨(List.range 46).map fun i => f.getMsbD i, f.getMsbD 46, f.getMsbD 47, by simp, by
      simp [frameBits, List.range_succ]⟩
  have hf := foldl_shiftIn_frameBits f s.maint.shift
  unfold clockFrame
  rw [hb] at hr hf ⊢
  rw [reachesRecovery_append, Bool.or_eq_false_iff] at hr
  rw [List.foldl_append, clockEdges_within l b s (State.not_timedOut (.inl hp)) (by omega) hr.1]
  have hc := hr.2
  simp only [reachesRecovery, Bool.or_false, decide_eq_false_iff_not] at hc
  rw [List.foldl_append, List.foldl_cons, List.foldl_nil] at hf
  rw [List.foldl_append (l' := [c]), List.foldl_cons, List.foldl_nil, List.foldl_cons, List.foldl_nil,
    clockEdge_last (State.not_timedOut (.inr rfl))]
  · simp only [State.withMaint_maint, mdoAtEdge, hp, hl, hf, if_true]
    rfl
  · simp only [State.withMaint_maint]; omega
  · exact hc

theorem onesAfter_le (n : Nat) (b : Bool) : onesAfter n b ≤ n + 1 := by
  cases b
  · exact Nat.zero_le _
  · exact le_rfl

theorem reachesRecovery_short : ∀ (l : List Bool) (n : Nat), n + l.length < 64 → reachesRecovery n l = false
  | [], _, _ => rfl
  | b :: l, n, h => by
    have := onesAfter_le n b
    rw [List.length_cons] at h
    simp only [reachesRecovery, Bool.or_eq_false_iff, decide_eq_false_iff_not, Config.alignmentOnes]
    exact ⟨by omega, reachesRecovery_short l _ (by omega)⟩

/-- A frame whose first bit is 0 holds no run of 64 ones, whatever came before it. -/
theorem State.aligned_of_zero {f : MaintFrame} {s : State} (hp : s.maint.position = 0) (h : f.getMsbD 0 = false) :
    s.aligned f := by
  refine ⟨hp, ?_⟩
  have : frameBits f = false :: (List.range 47).map fun i => f.getMsbD (i + 1) := by
    rw [frameBits, List.range_succ_eq_map, List.map_cons, h, List.map_map]; rfl
  rw [this, reachesRecovery, Bool.or_eq_false_iff]
  exact ⟨by simp [onesAfter], reachesRecovery_short _ _ (by simp [onesAfter])⟩

/-! ## WATCH and forced records -/

/-- A record with a forced value shows it with quality FORCED, whatever else it holds (R7). -/
theorem Record.image_of_forced {r : Record} {v : List Byte} (h : r.forcedValue = some v) :
    r.image = (.forced, some v) := by
  simp [Record.image, Record.quality, Record.visibleValue, h]

/-- An apply step leaves the forced value (R58). -/
@[simp] theorem Record.applied_forcedValue (v : List Byte) (q : Option Byte) (t : Nat) (lease : Option Nat)
    (r : Record) : (r.applied v q t lease).forcedValue = r.forcedValue := by
  unfold Record.applied Record.renewed
  cases lease <;> cases r.producer <;> simp

/-- A step that leaves the visible image leaves what WATCH answers (R9, R11). -/
theorem watchAnswer_recordStep {s : State} {i : SlotIx} {r : Record} {f : Record → Record} (h : s.record i = some r)
    (hf : (f r).image = r.image) (field : Byte) : (recordStep i f s).watchAnswer field = s.watchAnswer field := by
  have hs := recordStep_spec s h f
  rw [Becomes, if_pos hf] at hs
  rw [hs]
  rfl

/-- A publish, WRITE or POKE applied under a force leaves what WATCH answers (the third point of R66). -/
theorem watchAnswer_applyStep_of_forced {s : State} {i : SlotIx} {r : Record} {w : List Byte} (h : s.record i = some r)
    (hr : r.forcedValue = some w) (v : List Byte) (q : Option Byte) (renew : Bool) (field : Byte) :
    (applyStep i v q renew s).watchAnswer field = s.watchAnswer field := by
  refine watchAnswer_recordStep h ?_ field
  rw [Record.image_of_forced hr]
  exact Record.image_of_forced (by rw [Record.applied_forcedValue, hr])

end Sys2Proof.Machine
end

