-- ==== Sys2Proof/Laws/Receive.lean ====
section
/-! SUPPORT. What a received frame leaves alone, and readings of the line as the frames that end in them. -/

namespace Sys2Proof.Machine

/-- From `s` to `u` port and transmitter stand. -/
def SameLine (s u : State) : Prop := u.port = s.port ∧ u.transmitter = s.transmitter

theorem SameLine.refl (s : State) : SameLine s s := ⟨rfl, rfl⟩

theorem SameLine.trans {s t u : State} (h : SameLine s t) (g : SameLine t u) : SameLine s u :=
  ⟨g.1.trans h.1, g.2.trans h.2⟩

theorem SameLine.foldl {α : Type} {f : State → α → State} (h : ∀ s a, SameLine s (f s a)) (l : List α) :
    ∀ s, SameLine s (l.foldl f s) := by
  induction l with
  | nil => exact SameLine.refl
  | cons a l ih => exact fun s => (h s a).trans (ih _)

theorem sameLine_setMarker (ref : Ref) (n : Addr) (m : Bool) (s : State) : SameLine s (setMarker ref n m s) := by
  obtain ⟨x, h⟩ := setMarker_frame ref n m s
  rw [h]; exact ⟨rfl, rfl⟩

theorem sameLine_notifyRequest (t : Tag) (ref : Ref) (n : Addr) (s : State) :
    SameLine s (notifyRequest t ref n s) := by
  unfold notifyRequest
  split
  · exact .refl s
  · exact ⟨rfl, rfl⟩
  · exact (sameLine_setMarker ref n true s).trans ⟨rfl, rfl⟩

theorem sameLine_confirm (n : Addr) (t : Tag) (q : Byte) (c : OutcomeCode) (s : State) :
    SameLine s (confirm n t q c s) := by
  unfold confirm
  split <;> exact ⟨rfl, rfl⟩

theorem sameLine_returnSubscription (i : SlotIx) (n : Addr) (s : State) : SameLine s (returnSubscription i n s) := by
  unfold returnSubscription
  split
  · split <;> exact ⟨rfl, rfl⟩
  · exact .refl s

theorem sameLine_visibleChange (i : SlotIx) (s : State) : SameLine s (visibleChange i s) := by
  unfold visibleChange
  split
  · exact .refl s
  · exact SameLine.trans ⟨rfl, rfl⟩ (SameLine.foldl (fun _ _ => sameLine_notifyRequest _ _ _ _) _ _)

theorem sameLine_recordStep (i : SlotIx) (f : Record → Record) (s : State) : SameLine s (recordStep i f s) := by
  unfold recordStep
  split
  · exact .refl s
  · split
    · exact ⟨rfl, rfl⟩
    · exact SameLine.trans ⟨rfl, rfl⟩ (sameLine_visibleChange i _)

theorem sameLine_renewAlone (i : SlotIx) (s : State) : SameLine s (renewAlone i s) := by
  unfold renewAlone
  split <;> exact ⟨rfl, rfl⟩

theorem sameLine_createRecord (n : NewRecord) (s : State) : SameLine s (createRecord n s) := by
  unfold createRecord
  split <;> exact ⟨rfl, rfl⟩

theorem sameLine_retireSlot (i : SlotIx) (s : State) : SameLine s (retireSlot i s) := by
  unfold retireSlot
  split
  · exact .refl s
  · rename_i r _
    have := SameLine.foldl (f := goneRequest r.tag i)
      (fun u x => (sameLine_notifyRequest r.tag ⟨i, u.incarnation i⟩ x.node u).trans
        (sameLine_returnSubscription i x.node _)) r.subscribers
    have h := this (countDown (zoneOf r.tag) (s.withDirectory (s.directory.filter fun e => e ≠ ⟨r.tag, i⟩)))
    exact ⟨h.1, h.2⟩

theorem sameLine_act (d : PublishVerdict) (n : Addr) (t : Tag) (q : Byte) (v : List Byte) (s : State) :
    SameLine s (d.act n t q v s) := by
  cases d with
  | refuse c => exact .refl s
  | create => exact sameLine_createRecord _ s
  | duplicate i =>
    refine (sameLine_renewAlone i s).trans ?_
    show SameLine _ (touchUpdate i (renewAlone i s))
    unfold touchUpdate
    split <;> exact ⟨rfl, rfl⟩
  | old => exact ⟨rfl, rfl⟩
  | supersede i => exact SameLine.trans ⟨rfl, rfl⟩ ((sameLine_renewAlone i (supersedeEntry i q v s)).trans ⟨rfl, rfl⟩)
  | park i => exact SameLine.trans ⟨rfl, rfl⟩ (sameLine_renewAlone i (parkEntry i q v s))
  | apply i => exact sameLine_recordStep i _ s

theorem sameLine_countRefusal (c : OutcomeCode) (s : State) : SameLine s (countRefusal c s) := by
  unfold countRefusal
  split <;> exact ⟨rfl, rfl⟩

theorem sameLine_doPublish (n : Addr) (t : Tag) (q fl : Byte) (v : List Byte) (s : State) :
    SameLine s (doPublish n t q fl v s) := by
  unfold doPublish
  dsimp only
  refine SameLine.trans (sameLine_countRefusal (s.publishVerdict n t q v).code s)
    (SameLine.trans ?_ (sameLine_act _ _ _ _ _ _))
  split
  · exact sameLine_confirm _ _ _ _ _
  · exact .refl _

theorem sameLine_doWithdraw (n : Addr) (t : Tag) (q : Byte) (s : State) : SameLine s (doWithdraw n t q s) := by
  unfold doWithdraw
  split
  · exact (sameLine_countRefusal _ s).trans (sameLine_confirm _ _ _ _ _)
  · exact (sameLine_confirm _ _ _ _ _).trans (sameLine_retireSlot _ _)

theorem sameLine_doSubscribe (n : Addr) (t : Tag) (q : Byte) (s : State) : SameLine s (doSubscribe n t q s) := by
  unfold doSubscribe
  split
  · exact (sameLine_countRefusal _ s).trans (sameLine_confirm _ _ _ _ _)
  · exact sameLine_confirm _ _ _ _ _
  · refine SameLine.trans ?_ ((sameLine_confirm _ _ _ _ _).trans (sameLine_notifyRequest _ _ _ _))
    unfold addSubscription
    split <;> exact ⟨rfl, rfl⟩

theorem sameLine_doUnsubscribe (n : Addr) (t : Tag) (q : Byte) (s : State) : SameLine s (doUnsubscribe n t q s) := by
  unfold doUnsubscribe
  split
  · exact (sameLine_countRefusal _ s).trans (sameLine_confirm _ _ _ _ _)
  · exact (sameLine_returnSubscription _ _ s).trans (sameLine_confirm _ _ _ _ _)

theorem sameLine_doQuery (n : Addr) (p : Tag) (v : List Byte) (s : State) : SameLine s (doQuery n p v s) := by
  unfold doQuery
  dsimp only
  split
  · exact ⟨rfl, rfl⟩
  · split
    · exact ⟨rfl, rfl⟩
    · split
      · exact ⟨rfl, rfl⟩
      · exact SameLine.foldl (f := fun u (b : AnswerBody × Tag) => joinAnswers b.1 n b.2 u) (fun _ _ => ⟨rfl, rfl⟩) _ s

/-- A received frame leaves port and transmitter alone (R123 to R126). -/
theorem sameLine_receive (x : Option Frame) (s : State) : SameLine s (receive x s) := by
  unfold receive
  split
  · exact ⟨rfl, rfl⟩
  · split
    · exact ⟨rfl, rfl⟩
    · exact .refl s
    · refine SameLine.trans (t := s.count .rxGood) ⟨rfl, rfl⟩ ?_
      unfold dispatchFrame
      split
      · exact sameLine_doPublish _ _ _ _ _ _
      · exact sameLine_doQuery _ _ _ _
      · exact sameLine_doWithdraw _ _ _ _
      · exact sameLine_doSubscribe _ _ _ _
      · exact sameLine_doUnsubscribe _ _ _ _
      · exact .refl _

/-- No quiet bit time behind the one that ended a frame: nothing more happens (R132). -/
theorem waitQuiet_zero {s : State} (h : s.port.quietTime = 1) : waitQuiet 0 s = s := by
  have hj : ¬ (s.port.state = .joining ∧ s.port.bitRate.joinBits ≤ s.port.quietTime + 0) := by
    rw [h]
    rintro ⟨-, g⟩
    revert g
    cases s.port.bitRate <;> decide
  rw [waitQuiet, if_neg hj]
  rfl

/-- One reading: the port's line fields move, and at the first quiet bit time a frame under way is taken (R117). -/
theorem readLine_cases (s : State) (r : Reading) :
    (∃ p, readLine s r = s.withPort p ∧ ∀ rs, endedFrames s.port.quietTime s.port.underWay (r :: rs) =
      endedFrames p.quietTime p.underWay rs) ∨
    ∃ l p, readLine s r = receive (parseFrame l) (s.withPort p) ∧
      ∀ rs, endedFrames s.port.quietTime s.port.underWay (r :: rs) =
        parseFrame l :: endedFrames p.quietTime p.underWay rs := by
  cases r with
  | zero => exact .inl ⟨_, rfl, fun rs => by cases s.port.underWay <;> rfl⟩
  | one => exact .inl ⟨_, rfl, fun rs => by cases s.port.underWay <;> rfl⟩
  | quiet =>
    cases h : s.port.underWay with
    | none => exact .inl ⟨_, passQuiet_of_none h 0, fun rs => by simp only [endedFrames, h]⟩
    | some l =>
      refine .inr ⟨l, { s.port with quietTime := 1, underWay := none, lineTime := s.port.lineTime + 0 + 1 }, ?_,
        fun rs => rfl⟩
      have := (sameLine_receive (parseFrame l)
        (s.withPort { s.port with quietTime := 1, underWay := none, lineTime := s.port.lineTime + 0 + 1 })).1
      rw [readLine, passQuiet_of_some h, waitQuiet_zero (by rw [closeFrame, this]; rfl)]
      rfl

/-- Readings in which no frame ends move the line fields of the port alone; a first frame that ends in them is taken, and
then come the rest (R117, R123). -/
theorem foldl_readLine_cases (rs : List Reading) : ∀ s : State,
    (endedFrames s.port.quietTime s.port.underWay rs = [] ∧ ∃ p, rs.foldl readLine s = s.withPort p) ∨
    ∃ x p later, rs.foldl readLine s = later.foldl readLine (receive x (s.withPort p)) ∧
      endedFrames s.port.quietTime s.port.underWay rs = x :: endedFrames p.quietTime p.underWay later := by
  induction rs with
  | nil => exact fun s => .inl ⟨by simp only [endedFrames], s.port, rfl⟩
  | cons r rs ih =>
    intro s
    rw [List.foldl_cons]
    rcases readLine_cases s r with ⟨p, h, g⟩ | ⟨l, p, h, g⟩
    · rw [h, g]
      rcases ih (s.withPort p) with ⟨g1, q, h1⟩ | ⟨x, q, later, h1, g1⟩
      · exact .inl ⟨g1, q, h1⟩
      · exact .inr ⟨x, q, later, h1, g1⟩
    · rw [h, g]
      exact .inr ⟨_, p, rs, rfl, rfl⟩

/-- Driven bits and a quiet bit time end one frame (R117). -/
theorem endedFrames_bits (l : List Bool) : ∀ (q : Nat) (w : Option (List Bool)), w.isSome = true ∨ 11 ≤ q ∧ l ≠ [] →
    endedFrames q w ((l.map fun b => if b then .one else .zero) ++ [.quiet]) = [parseFrame (w.getD [] ++ l)] := by
  induction l with
  | nil =>
    rintro q (_ | w) (h | h)
    · simp at h
    · simp at h
    all_goals simp [endedFrames]
  | cons b l ih =>
    intro q w h
    have step : endedFrames q w (((b :: l).map fun b => if b then .one else .zero) ++ [.quiet]) =
        endedFrames 0 (some (w.getD [] ++ [b])) ((l.map fun b => if b then .one else .zero) ++ [.quiet]) := by
      cases w with
      | some w => cases b <;> simp [endedFrames, withBit]
      | none =>
        have hq : 11 ≤ q := by rcases h with h | h <;> simp_all
        cases b <;> simp [endedFrames, withBit, hq]
    rw [step, ih 0 _ (.inl rfl)]
    simp

end Sys2Proof.Machine
end

