-- ==== Sys2Proof/Laws/Thaw.lean ====
section
/-! SUPPORT. What the stages of a thaw do: a parked entry, a pending age step, and runs of them. -/

namespace Sys2Proof.Machine

/-- A run of steps, each of which keeps what makes it one change, is these changes one after the other. -/
theorem inTurn_foldl {α : Type} {P : α → State → State → Prop} {f : State → α → State} {Q : List α → State → Prop}
    (hP : ∀ a l s, Q (a :: l) s → P a s (f s a)) (hQ : ∀ a l s, Q (a :: l) s → Q l (f s a)) :
    ∀ (l : List α) (s : State), Q l s → InTurn P l s (l.foldl f s)
  | [], _, _ => rfl
  | a :: l, s, h => ⟨f s a, hP a l s h, inTurn_foldl hP hQ l (f s a) (hQ a l s h)⟩

/-- A parked entry of a node's record, taken at the thaw (R58, R59, R96). -/
theorem applyDeferred_spec {e : Deferred} {s : State} {r : Record} {n : Addr} (h : s.record e.slot = some r)
    (hi : s.incarnation e.slot = e.incarnation) (hp : r.producer = .node n) : Unparked e s (applyDeferred s e) := by
  refine ⟨r, h, ?_⟩
  have ha : r.applied e.value (some e.sequence) s.timeBase (some (s.zone (zoneOf r.tag)).lease) =
      { r with
        state := .live
        processValue := some e.value
        lastSequence := some e.sequence
        lastUpdate := s.timeBase
        leaseDeadline := leaseAfter s r
        graceDeadline := if r.state = .stale then none else r.graceDeadline
        pendingAge := pendingAfter r } := by
    unfold Record.applied Record.renewed
    simp only [hp]
    rfl
  have hs := recordStep_spec s h fun r : Record =>
    r.applied e.value (some e.sequence) s.timeBase (some (s.zone (zoneOf r.tag)).lease)
  rw [ha] at hs
  simpa only [applyDeferred, if_pos hi, applyStep, if_true] using hs

/-- A pending age step, taken or dropped at the thaw (R80, R97). -/
theorem settlePending_spec {i : SlotIx} {s : State} {r : Record} (h : s.record i = some r) :
    SettledPending i s (settlePending s i) := by
  refine ⟨r, h, ?_⟩
  have hset : ∀ p, setPendingAge i p s = s.setRecord i { r with pendingAge := p } := by
    intro p; simp only [setPendingAge, h]
  have he : settlePending s i =
      if r.pendingAge = .expire ∧ r.state = .live then makeStale i (setPendingAge i .noStep s)
      else if r.pendingAge = .retire ∧ r.state = .stale then retireSlot i s else setPendingAge i .noStep s := by
    simp only [settlePending, h]
    cases r.pendingAge <;> cases r.state <;> rfl
  rw [he, hset]
  by_cases h1 : r.pendingAge = .expire ∧ r.state = .live
  · rw [if_pos h1, if_pos h1]
    exact recordStep_spec _ (State.record_setRecord_self s i { r with pendingAge := .noStep }) fun x : Record =>
      { x with
        state := .stale
        graceDeadline :=
          if (s.zone (zoneOf x.tag)).grace = 0 then none
          else some (s.timeBase + 10 * (s.zone (zoneOf x.tag)).grace) }
  · rw [if_neg h1, if_neg h1]
    by_cases h2 : r.pendingAge = .retire ∧ r.state = .stale
    · rw [if_pos h2, if_pos h2]
      exact retireSlot_spec s h
    · rw [if_neg h2, if_neg h2]

end Sys2Proof.Machine
end

