-- ==== Sys2Proof/Tests/Slice0.lean ====
section
/-! SUPPORT. Tests from the manual's examples, the smoke test of `Instr.wf`, and for each obligation states and operands
that meet its hypotheses. -/

namespace Sys2Proof.Tests

-- One test after the other: at once they take more memory than the check allows.
set_option Elab.async false

open Sys2Proof Sys2Proof.Machine

/-! ## Small states -/

/-- The record of section 1.10 after its step 4, with node 12 subscribed. -/
def point : Record :=
  ⟨.live, 0x3A0102, .node 7, 4, some [0, 0, 1, 0xF4], some 6, none, 0, 1500, some 4500, none, .noStep, [⟨12, false⟩]⟩

/-- Zone 3 of section 1.10 with one record. -/
def zone3 : Zone := ⟨.active, .opened, 4, 1, 300, 0, 2, none⟩

/-- An ONLINE part of own address 1 with slot 1 taken out of the free-slot queue. -/
def ground (tag : Tag) (z : Zone) (now pool : Nat) : State :=
  { State.powerOn ⟨1, 0⟩ with
    freeQueue := (List.finRange 512).filter fun i => i ≠ 1
    directory := [⟨tag, 1⟩]
    zones := (Vector.replicate 16 Zone.reset).set 3 z
    timeBase := now
    poolFree := pool
    port := ⟨.online, 1, .kbit125, 0, false, none, 0⟩ }

/-- An ONLINE part of own address 1 with one record in slot 1, of incarnation 4. -/
def image (r : Record) (z : Zone) (now : Nat) : State :=
  (ground r.tag z now (256 - r.subscribers.length)).setSlot 1 ⟨4, some r⟩

/-- The part of section 1.10 at time 1600. -/
def demo : State := image point zone3 1600

/-- A state with one waiting block. -/
def taking (ws : List Word) (s : State) : State := { s with host := { s.host with commands := [⟨ws, false⟩] } }

/-- The state after a command. -/
def after (c : Instr) (s : State) : State :=
  match exec c s with
  | .next t => t
  | _ => s

/-- The outcome number in the first completion entry. -/
def outcome (s : State) : Option Nat := s.host.completions.head?.map fun e => e[1].toNat % 256

/-- A queue of `n` CONFIRM entries. -/
def confirms (n : Nat) : List Answer := List.replicate n ⟨.confirm 0 .ok, 5, 0x3A0102, 0, 0, false⟩

/-- A queue of `n` NOTIFY entries to node 12 for the record in slot 9. -/
def notifies (n : Nat) : List Answer := List.replicate n ⟨.notify ⟨9, 0⟩ false, 12, 0x3A0102, 0, 0, false⟩

/-! ## Well-formedness -/

theorem test_wf_publish : (Instr.publish 1 7 0x3A0102 0 0 (List.replicate 9 0)).wf = false ∧
    (Instr.publish 1 7 0x3A0102 0 0 (List.replicate 8 0)).wf = true := by decide
theorem test_wf_query : (Instr.query 1 7 0 (List.replicate 9 0)).wf = false := by decide
theorem test_wf_attemptLost : (Instr.attemptLost 12).wf = false ∧ (Instr.attemptLost 11).wf = true := by decide
theorem test_wf_attemptFault : (Instr.attemptFault 148 .one).wf = false ∧ (Instr.attemptFault 147 .one).wf = true := by
  decide
theorem test_wf_unknownRequestCode : (Instr.unknownRequestCode 5 0).wf = false ∧
    (Instr.unknownRequestCode 6 0).wf = true := by decide

/-! ## The manual's examples -/

/-- R52: 250 and 3 newer, 3 and 250 older, 100 and 228 older. -/
theorem test_sequence_classes : seqClass 250 3 = .newer ∧ seqClass 3 250 = .older ∧ seqClass 100 228 = .older := by
  decide

/-- The table of R29. -/
theorem test_tag_matching : tagMatches 0x3A0000 0xFF0000 0x3AFFFF = true ∧ tagMatches 0x700000 0xF00000 0x800000 = false ∧
    tagMatches 0 0xF00000 0x0FFFFF = true := by decide

/-- Section 1.10 step 5: revision 1, change count up by 1, lease 4600, one NOTIFY to node 12. -/
theorem test_publish_newer :
    let t := after (.publish 1 7 0x3A0102 7 0 [0, 0, 2, 0x58]) demo
    (t.record 1).map (fun r => (r.processValue, r.revision, r.leaseDeadline)) = some (some [0, 0, 2, 0x58], 1, some 4600) ∧
      (t.zone 3).changeCount = 3 ∧ t.lastTouched = ⟨1, 0x3A0102, 1⟩ ∧
      t.answers.map (fun a => (a.body, a.destination)) = [(.notify ⟨1, 4⟩ false, 12)] := by
  decide +kernel

/-- Section 1.10 step 4: the same bytes again are no visible change. -/
theorem test_publish_same_bytes :
    let t := after (.publish 1 7 0x3A0102 7 0 [0, 0, 1, 0xF4]) demo
    (t.record 1).map (fun r => (r.lastSequence, r.revision)) = some (some 7, 0) ∧ (t.zone 3).changeCount = 2 ∧
      t.answers = [] := by
  decide +kernel

/-- Section 1.10 step 9: the slot is FREE under its next incarnation and goes to the tail. -/
theorem test_withdraw :
    let t := after (.withdraw 1 7 0x3A0102 0) demo
    t.slot 1 = ⟨5, none⟩ ∧ t.freeQueue.getLast? = some 1 ∧ (t.zone 3).count = 0 ∧ t.poolFree = 256 ∧
      t.lastTouched = ⟨1, 0x3A0102, 1⟩ := by
  decide +kernel

/-- Section 1.10 steps 6 and 8: FORCE and UNFORCE are visible. -/
theorem test_force_unforce :
    let t := after .force (taking [0x0400, 0x3A, 0x0102, 0x0400, 0, 0, 0, 0] demo)
    let u := after .unforce (taking [0x0500, 0x3A, 0x0102] t)
    (t.record 1).map (·.image) = some (.forced, some [0, 0, 0, 0]) ∧
      (u.record 1).map (fun r => (r.image, r.revision)) = some ((.good, some [0, 0, 1, 0xF4]), 2) := by
  decide +kernel

/-- Section 3.9: SET_ZONE of a quota of 250 beside 300 is refused QUOTA (22), of 212 it is OK, over F it is
BAD_ARGUMENT (34). -/
theorem test_set_zone :
    let s := { State.reset with zones := (Vector.replicate 16 Zone.reset).set 3 ⟨.active, .opened, 300, 0, 500, 1000, 0, none⟩ }
    outcome (after .setZone (taking [0x0800, 4, 0x0100, 250, 0, 0] s)) = some 22 ∧
      outcome (after .setZone (taking [0x0800, 4, 0x0100, 212, 0, 0] s)) = some 0 ∧
      outcome (after .setZone (taking [0x0800, 16, 0x0101, 1, 0, 0] s)) = some 34 := by
  decide +kernel

/-- Section 11.8, frame 6: the patch makes a revision, keeps the last sequence, and the before-value goes out. -/
theorem test_poke_data :
    let s := { image point zone3 1600 with
      maint := { Maint.reset with mode := .service, poke := .awaitData 1 2 4 } }
    let t := after (.pokeDataFrame 0x0000000003E8) s
    (t.record 1).map (fun r => (r.processValue, r.lastSequence, r.revision)) =
        some (some [0, 0, 3, 0xE8], some 6, 1) ∧
      t.maint.output = 0x0005000001F4 := by
  decide +kernel

/-- The check register over the digits 1 to 9: the published check value of this polynomial and preset. -/
theorem test_crc : crcOf ([0x31, 0x32, 0x33, 0x34, 0x35, 0x36, 0x37, 0x38, 0x39].flatMap fun b : Byte => bitsOf b) =
    0x29B1 := by
  decide +kernel

/-- The readings of a PUBLISH behind so many quiet bit times. -/
def bare (quiet : Nat) : Instr :=
  .frameDropped (List.replicate quiet .quiet ++
    (Frame.bits ⟨1, 7, 1, 0x3A0102, 7, 0, 0, [0, 0, 2, 0x58]⟩).map (fun b => if b then .one else .zero) ++ [.quiet])

/-- R117: a frame that begins after 11 quiet bit times is taken at its first quiet bit time; one that begins after 10 is
not, nor is it counted. -/
theorem test_frame_on_the_idle_line :
    (let t := after (bare 11) demo;
      (t.record 1).map (·.processValue) = some (some [0, 0, 2, 0x58]) ∧ t.counters.rxGood = 1) ∧
    (let t := after (bare 10) demo;
      (t.record 1).map (·.processValue) = some (some [0, 0, 1, 0xF4]) ∧ t.counters.rxGood = 0 ∧
        t.counters.rxBad = 0) := by
  decide +kernel

/-- R117, R125: an attempt that a quiet reading ends leaves its echo short, which is counted, and one quiet bit time. -/
theorem test_fault_cuts_the_echo :
    let a : Answer := ⟨.confirm 5 .ok, 7, 0x3A0102, 1600, 0, true⟩
    let s := ((demo.withPort { demo.port with quietTime := 11 }).withAnswers [a]).withTransmitter (some (demo.bindAnswer a))
    let t := after (.attemptFault 20 .quiet) s
    t.counters.rxBad = 1 ∧ t.port.quietTime = 1 ∧ t.transmitter = none ∧ t.answers.map (·.faultCount) = [1] := by
  decide +kernel

/-- R125: a frame that goes on behind the last bit sent is not the port's own, and its attempt has ended SENT. -/
theorem test_bits_behind_the_frame :
    let a : Answer := ⟨.confirm 5 .ok, 7, 0x3A0102, 1600, 0, true⟩
    let s := ((demo.withPort { demo.port with quietTime := 11 }).withAnswers [a]).withTransmitter (some (demo.bindAnswer a))
    let longer := .frameDropped ((((demo.bindAnswer a).bits ++ [true]).map fun b => if b then .one else .zero) ++ [.quiet])
    (after .attemptSent (after longer s)).counters.rxBad = 1 ∧ (after .attemptSent (after longer s)).answers = [] ∧
      (after .attemptSent s).counters.rxBad = 0 := by
  decide +kernel

/-- R150: on a full queue a CONFIRM that joins before SENT is dropped and counted; one behind it takes the freed entry. -/
theorem test_confirm_meets_sent :
    let a : Answer := ⟨.confirm 5 .ok, 7, 0x3A0102, 1600, 0, false⟩
    let s := ((demo.withPort { demo.port with quietTime := 11 }).withAnswers
      ({ a with started := true } :: List.replicate 23 a)).withTransmitter (some (demo.bindAnswer a))
    let c : Instr := .subscribe 1 9 0x100001 3
    (let t := after .attemptSent (after c s);
      t.answers.length = 23 ∧ t.counters.queryDropped = 1 ∧ t.counters.refused = 1) ∧
    (let t := after c (after .attemptSent s);
      t.answers.length = 24 ∧ t.counters.queryDropped = 0 ∧ t.answers.getLast?.map (·.destination) = some 9) := by
  decide +kernel

/-- R132: at 125 kbit/s JOINING ends with the 250th quiet bit time in a row. -/
theorem test_joining_ends :
    let s := demo.withPort { demo.port with state := .joining }
    (after (.busOnline 249) s).port.state = .joining ∧ (after (.busOnline 250) s).port.state = .online ∧
      (after (.busOnline 249) (after (.frameDropped [.zero]) (after (.busOnline 249) s))).port.state = .joining := by
  decide +kernel

/-- R183: an edge that comes after the timeout begins a new frame. -/
theorem test_edge_after_timeout :
    let s := demo.withMaint { Maint.reset with position := 20, lastEdge := 1598, output := 0 }
    let t := after (.mclkRisingEdge ⟨false, false⟩) s
    t.maint.position = 1 ∧ t.maint.output = BitVec.allOnes 48 ∧ t.maint.mdo = true := by
  decide +kernel

/-! ## States and operands that meet the hypotheses of the obligations -/

/-- A newer publish from node 7. -/
def newer : Instr := .publish 1 7 0x3A0102 8 0 [0, 0, 3, 0x20]

/-- The part of section 1.10 frozen until 2100, with one parked publish, one queued NOTIFY and a newer publish waiting. -/
def held : State :=
  ((image point { zone3 with freeze := some 2100 } 1600).withDeferred [⟨1, 4, 7, [0, 0, 2, 0x58]⟩]).withAnswers
    [⟨.notify ⟨1, 4⟩ false, 12, 0x3A0102, 1590, 0, false⟩] |>.withPending [newer]

theorem ground_slot (tag : Tag) (z : Zone) (now pool : Nat) (i : SlotIx) : (ground tag z now pool).slot i = Slot.reset := by
  simp only [State.slot, ground, State.powerOn, Vector.getElem_replicate]

theorem image_slot (r : Record) (z : Zone) (now : Nat) (i : SlotIx) :
    (image r z now).slot i = if i = 1 then ⟨4, some r⟩ else Slot.reset := by
  rw [image, State.slot_setSlot, ground_slot]

theorem held_record (i : SlotIx) : held.record i = if i = 1 then some point else none := by
  have h : held.slots = (image point { zone3 with freeze := some 2100 } 1600).slots := rfl
  rw [State.record_congr h, State.record, image_slot]
  split_ifs <;> rfl

theorem held_directory : held.directory = [⟨0x3A0102, 1⟩] := rfl

theorem held_freeQueue : held.freeQueue = (List.finRange 512).filter fun i => i ≠ 1 := by
  simp only [held, image, ground, State.withPending_freeQueue, State.withAnswers_freeQueue, State.withDeferred_freeQueue, State.setSlot_freeQueue]

theorem held_recordsIn : ∀ z, (held.zone z).count = held.recordsIn z := by decide +kernel

/-- `held` meets every invariant of the table. -/
theorem held_table : TableSound held where
  ascending := by rw [held_directory]; exact List.pairwise_singleton _ _
  entries t i := by
    rw [held_record]
    constructor
    · intro h
      rw [held_directory, List.mem_singleton] at h
      obtain ⟨rfl, rfl⟩ := DirEntry.mk.inj h
      exact ⟨point, rfl, rfl⟩
    · rintro ⟨r, h, rfl⟩
      split_ifs at h with hi
      · subst hi; cases h; rw [held_directory]; exact List.mem_singleton.2 rfl
  tagged i r h := by
    rw [held_record] at h
    split_ifs at h
    · cases h; decide
  freeOnce := by rw [held_freeQueue]; exact (List.nodup_finRange 512).filter _
  free i := by
    rw [held_record]
    rw [held_freeQueue, List.mem_filter]
    by_cases h : i = 1 <;> simp [h]
  counted := held_recordsIn
  withinQuota := by decide +kernel
  ranges := by decide +kernel
  quotas := by decide +kernel
  disabled := by decide +kernel

theorem held_subscriptions : SubscriptionsSound held where
  pool := by decide +kernel
  lists i r h := by
    rw [held_record] at h
    split_ifs at h
    · cases h; decide
  nodes i r h := by
    rw [held_record] at h
    split_ifs at h
    · cases h; decide

theorem held_deferred : DeferredSound held where
  bounded := by decide
  oncePerSlot := by decide
  held e he := by
    have : e = ⟨1, 4, 7, [0, 0, 2, 0x58]⟩ := by simpa [held] using he
    subst this
    exact ⟨point, 7, by decide +kernel, by decide +kernel, by decide +kernel, rfl, rfl⟩

theorem held_records : RecordsSound held := by
  intro i r h
  rw [held_record] at h
  split_ifs at h
  · cases h
    exact ⟨by decide, by simp [point], by simp [point], by simp [point, validAddress], by simp [point], by simp [point], by simp [point],
      by simp [point], by simp [point]⟩

theorem held_answers : AnswersSound held where
  bounded := by decide
  notifies := by decide
  onePerTriple ref n := by simp [held, List.countP_cons]; split <;> decide
  started := by decide
  faults := by decide
  offline h := by cases h
  online h := by cases h

theorem held_host : HostSound held :=
  ⟨by decide, by decide, by decide, by decide, by decide, by decide, by intro h; cases h⟩

theorem held_ranges : DeviceSound held ∧ MaintSound held :=
  ⟨⟨by decide, by decide, by decide, by decide, by decide, by simp [held, image, ground], by decide, by decide⟩,
    ⟨by decide, by decide, by decide⟩⟩

/-! Each `witness_<Name>` shows states and operands that meet the hypotheses of `Obligations.<Name>`, clause by clause, at
the ends of the ranges. -/

theorem image_record (r : Record) (z : Zone) (now : Nat) : (image r z now).record 1 = some r := by
  rw [State.record, image_slot]; rfl

theorem image_zone (r : Record) (z : Zone) (now : Nat) : (image r z now).zone 3 = z := by
  simp only [State.zone, image, State.setSlot_zones, ground]
  exact Vector.getElem_set_self _

theorem image_hears (r : Record) (z : Zone) (now : Nat) {src : Addr} (h : src ≠ 0 ∧ src ≠ 63 ∧ src ≠ 1) :
    (image r z now).Hears 1 src :=
  ⟨⟨by simp [image, ground], rfl, fun _ => rfl⟩, h, rfl, by decide⟩

theorem image_finds (r : Record) (z : Zone) (now : Nat) (ha : z.status = .active) (ht : r.tag = 0x3A0102) :
    (image r z now).Finds 0x3A0102 1 r := by
  refine ⟨by decide, ?_, ?_, image_record r z now⟩
  · have : zoneOf 0x3A0102 = 3 := by decide
    rw [this, image_zone, ha]
  · simp [State.lookup, image, ground, ht]

/-- `demo` with its line quiet for so many bit times, at this bit time of the millisecond. -/
def quietFor (q line : Nat) : State := demo.withPort { demo.port with quietTime := q, lineTime := line }

/-- One publish is one frame. -/
theorem held_oneFrame : ∀ c ∈ held.pending.head?, held.AtMostOneFrame c := by
  rintro c ⟨⟩ -
  rfl

theorem witness_OwnTurnOnAnEmptyQueue :
    (let s := quietFor 0 124;
      s.pending = [] ∧ s.ownEvents = [] ∧ s.port.state ≠ .offline ∧ s.port.stopPending = false ∧
        s.transmitter = none ∧ s.port.bitRate.bitsPerMilli - s.port.lineTime = 1) ∧
    (let s := quietFor 0 125;
      s.ownEvents = [] ∧ s.port.bitRate.bitsPerMilli - s.port.lineTime = 0 ∧ s.timeBase + 1 < 2 ^ 48) ∧
    (State.reset.pending = [] ∧ State.reset.ownEvents = [] ∧ State.reset.port.state = .offline) ∧
    ((image point zone3 4500).pending = [] ∧ (image point zone3 4500).ownEvents ≠ []) ∧
    .attemptStart 0 ∈ ((quietFor 11 0).withAnswers (confirms 1)).ownEvents := by
  decide +kernel

theorem witness_CommandsLeaveTheQueueAndTheClock : ∀ a r, Instr.nop 0 ≠ .reset a r := by
  intro a r h; cases h

theorem witness_StepKeepsTheTableSound : ∃ t, TableSound held ∧ step held = .next t := ⟨_, held_table, rfl⟩

theorem witness_StepKeepsTheSubscriptionsSound : ∃ t, TableSound held ∧ SubscriptionsSound held ∧ step held = .next t :=
  ⟨_, held_table, held_subscriptions, rfl⟩

theorem witness_StepKeepsTheDeferredQueueSound : ∃ t, TableSound held ∧ DeferredSound held ∧ step held = .next t :=
  ⟨_, held_table, held_deferred, rfl⟩

theorem witness_StepKeepsEveryRecordSound :
    ∃ t, TableSound held ∧ DeferredSound held ∧ RecordsSound held ∧ step held = .next t :=
  ⟨_, held_table, held_deferred, held_records, rfl⟩

theorem witness_StepKeepsTheAnswerQueueSound : ∃ t, AnswersSound held ∧ step held = .next t := ⟨_, held_answers, rfl⟩

theorem witness_StepKeepsTheHostQueuesSound : ∃ t, HostSound held ∧ step held = .next t := ⟨_, held_host, rfl⟩

theorem witness_StepKeepsTheRangesSound : ∃ t, step held = .next t ∧ DeviceSound held ∧ MaintSound held :=
  ⟨_, rfl, held_ranges⟩

theorem witness_FrozenZoneHoldsItsImage : ∃ t, TableSound held ∧ step held = .next t ∧ held.frozen 3 = true ∧
    t.frozen 3 = true ∧ held.record 1 = some point ∧ zoneOf point.tag = 3 :=
  ⟨after newer (held.withPending []), held_table, rfl, by decide +kernel, by decide +kernel, by decide +kernel, by decide⟩

theorem witness_IncarnationMovesAsASlotIsFreed :
    ∃ t, (∀ a r, held.pending.head? ≠ some (.reset a r)) ∧ (∀ c ∈ held.pending.head?, held.AtMostOneFrame c) ∧
      step held = .next t :=
  ⟨_, fun _ _ h => (by cases h), held_oneFrame, rfl⟩

theorem witness_RevisionMovesWithTheImage : ∃ t r r', TableSound held ∧ DeferredSound held ∧
    (∀ c ∈ held.pending.head?, held.AtMostOneFrame c) ∧ step held = .next t ∧
    held.record 1 = some r ∧ t.record 1 = some r' ∧ t.incarnation 1 = held.incarnation 1 ∧ r'.revision = r.revision :=
  ⟨after newer (held.withPending []), point, { point with leaseDeadline := some 4600 }, held_table, held_deferred,
    held_oneFrame, rfl, by decide +kernel, by decide +kernel, by decide +kernel, rfl⟩

theorem witness_TagMatching : (∀ k, k < 24 → (0xFF0000 : Tag).getLsbD k = true →
    (0x3A0102 : Tag).getLsbD k = (0x3A0000 : Tag).getLsbD k) ∧ TableSound held ∧ held.lookup 0x3A0102 = some 1 :=
  ⟨by decide, held_table, by decide +kernel⟩

/-- Two tags of zone 3: a limit of 1 leaves one, a limit of 2 none. -/
theorem witness_MatchWalkGivesTheFirstMatches :
    let s := demo.withDirectory [⟨0x3A0102, 1⟩, ⟨0x3A0103, 2⟩]
    s.directory.Pairwise (fun x y => x.tag < y.tag) ∧ s.walk 0x300000 0xF00000 0 1 = ([⟨0x3A0102, 1⟩], true) ∧
      s.walk 0x300000 0xF00000 0 2 = ([⟨0x3A0102, 1⟩, ⟨0x3A0103, 2⟩], false) ∧
      s.walk 0x300000 0xF00000 0xFFFFFF 1 = ([], false) := by
  decide +kernel

theorem witness_AnswersAreAdmittedByKind :
    held.waits ⟨1, 4⟩ 12 = true ∧
    (let s := demo.withAnswers (notifies 15 ++ confirms 8);
      s.waits ⟨1, 4⟩ 12 = false ∧ notifyCount s.answers < 16 ∧ s.answers.length < 24 ∧ s.port.state ≠ .offline) ∧
    (let s := demo.withAnswers (notifies 16);
      s.waits ⟨1, 4⟩ 12 = false ∧ 16 ≤ notifyCount s.answers) ∧
    (let s := demo.withAnswers (confirms 24);
      s.waits ⟨1, 4⟩ 12 = false ∧ 24 ≤ s.answers.length) ∧
    (State.reset.waits ⟨1, 4⟩ 12 = false ∧ State.reset.port.state = .offline) ∧ (confirms 23).length < 24 := by
  decide +kernel

/-- A frame with the longest payload. -/
def longFrame : Frame := ⟨1, 7, 1, 0x3A0102, 5, 1, 0, [1, 2, 3, 4, 5, 6, 7, 8]⟩

theorem witness_FrameBitsReadBack : longFrame.payload.length ≤ 8 ∧ longFrame.payload[7]? = some 8 := by decide

theorem witness_SingleBitErrorsAreDropped :
    longFrame.payload.length ≤ 8 ∧ longFrame.bits[0]? = some false ∧ longFrame.bits[147]?.isSome = true := by
  decide +kernel

theorem witness_LeaseExpiryAgesTheRecord :
    let stale := { point with state := .stale }
    ((image point zone3 4499).record 1 = some point ∧ point.leaseDeadline = some 4500 ∧ 4499 < 4500) ∧
    ((image stale zone3 4500).record 1 = some stale ∧ stale.leaseDeadline = some 4500) ∧
    ((image point { zone3 with freeze := some 9000 } 4500).record 1 = some point ∧
      (image point { zone3 with freeze := some 9000 } 4500).frozen (zoneOf point.tag) = true) ∧
    (image point zone3 4500).frozen (zoneOf point.tag) = false :=
  ⟨⟨image_record _ _ _, rfl, by decide⟩, ⟨image_record _ _ _, rfl⟩, ⟨image_record _ _ _, by decide +kernel⟩,
    by decide +kernel⟩

/-- A STALE record with a grace deadline. -/
def fading : Record := { point with state := .stale, leaseDeadline := none, graceDeadline := some 5000 }

theorem witness_GraceExpiryRetiresTheRecord :
    (∀ now, (image fading zone3 now).record 1 = some fading) ∧ fading.graceDeadline = some 5000 ∧
    fading.state = .stale ∧ (image fading zone3 4999).timeBase < 5000 ∧ 5000 ≤ (image fading zone3 5000).timeBase ∧
    (image fading { zone3 with freeze := some 9000 } 5000).frozen (zoneOf fading.tag) = true ∧
    (image fading zone3 5000).frozen (zoneOf fading.tag) = false :=
  ⟨fun _ => image_record _ _ _, rfl, rfl, by decide, by decide, by decide +kernel, by decide +kernel⟩

/-- The states of a record that meet a thaw: parked, EXPIRE, RETIRE and neither. -/
theorem witness_ThawSettlesTheZone :
    let z := { zone3 with freeze := some 2100 }
    let expiring := { point with leaseDeadline := none, pendingAge := .expire }
    let retiring := { fading with graceDeadline := none, pendingAge := .retire }
    (DeferredSound held ∧ held.frozen 3 = true ∧ (held.deferredOf 1).isSome = true ∧ held.record 1 = some point) ∧
    ((taking [0x0B00, 3] held).canTake .thaw ⟨[0x0B00, 3], false⟩ ∧ (3 : Word) = BitVec.ofNat 16 (3 : ZoneIx).val) ∧
    (held.timeBase < 2100 ∧ (held.zone 3).freeze = some 2100 ∧ 2100 ≤ (held.withTimeBase 2100).timeBase) ∧
    ((image expiring z 1600).deferredOf 1 = none ∧ expiring.pendingAge = .expire ∧ expiring.state = .live) ∧
    ((image retiring z 1600).deferredOf 1 = none ∧ retiring.pendingAge = .retire ∧ retiring.state = .stale) ∧
    ((image point z 1600).deferredOf 1 = none ∧ point.pendingAge = .noStep) ∧ zoneOf point.tag = 3 :=
  ⟨⟨held_deferred, by decide +kernel, by decide +kernel, by decide +kernel⟩, ⟨⟨rfl, rfl⟩, rfl⟩,
    ⟨by decide, by decide +kernel, by decide⟩, ⟨rfl, rfl, rfl⟩, ⟨rfl, rfl, rfl⟩, ⟨rfl, rfl⟩, by decide⟩

theorem witness_FramesNotTaken :
    let bits := fun (dst src : Addr) (k : BitVec 4) => Frame.bits ⟨dst, src, k, 0x3A0102, 0, 0, 0, []⟩
    State.reset.port.state = .offline ∧
    (demo.port.state ≠ .offline ∧ demo.port.stopPending = false ∧ demo.transmitter = none ∧
      demo.port.ownAddress = 1) ∧
    (let s := demo.withTransmitter (some longFrame);
      s.port.state ≠ .offline ∧ s.port.stopPending = false ∧ s.transmitter ≠ none) ∧
    ((quietFor 10 0).port.underWay = none ∧ (quietFor 10 0).port.quietTime < 11) ∧
    11 ≤ (quietFor 11 0).port.quietTime ∧ parseFrame ([] ++ [true]) = none ∧ parseFrame ([true] ++ []) = none ∧
    (parseFrame (bits 1 0 3)).isSome = true ∧ (parseFrame (bits 1 63 3)).isSome = true ∧
    (parseFrame (bits 1 7 6)).isSome = true ∧ (6 : BitVec 4) ∉ ([1, 2, 3, 4, 5, 8, 9, 10] : List (BitVec 4)) ∧
    (parseFrame (bits 1 1 3)).isSome = true ∧ (parseFrame (bits 2 7 3)).isSome = true ∧
    (parseFrame (bits 1 7 8)).isSome = true ∧ (parseFrame (bits 63 7 2)).isSome = true := by
  decide +kernel

theorem witness_RawFramesAreTakenByTheirKind :
    (∀ k ∈ ([1, 2, 3, 4, 5] : List (BitVec 4)), { longFrame with kind := k }.kind = k ∧
      { longFrame with kind := k }.payload.length ≤ 8) ∧
    (demo.port.state ≠ .offline ∧ demo.port.stopPending = false ∧ demo.transmitter = none) ∧
    (quietFor 10 0).port.underWay = none ∧ (quietFor 11 0).port.underWay = none ∧
    (after (.frameDropped [.one]) (quietFor 11 0)).port.underWay = some [true] ∧
    (demo.withTransmitter (some longFrame)).transmitter ≠ none := by
  decide +kernel

theorem witness_PublishRefusalsInOrder :
    demo.Hears demo.port.ownAddress 7 ∧ ((63 : Addr) = demo.port.ownAddress ∨ (63 : Addr) = 63) ∧
    (demo.zone (zoneOf 0x100001)).status = .disabled ∧
    (demo.lookup 0x3A0103 = none ∧ (demo.zone 3).status = .active ∧ zoneOf 0x3A0103 = 3) ∧
    ({ zone3 with admission := .closed } : Zone).admission = .closed ∧
    ((held.zone 3).admission = .opened ∧ (held.zone 3).freeze ≠ none) ∧
    ((image point { zone3 with quota := 1 } 0).zone 3).quota ≤ ((image point { zone3 with quota := 1 } 0).zone 3).count ∧
    ((demo.withFreeQueue []).zone 3).count < ((demo.withFreeQueue []).zone 3).quota ∧ demo.freeQueue ≠ [] ∧
    demo.Finds 0x3A0102 1 point ∧ point.producer ≠ .node 8 ∧ point.producer = .node 7 ∧
    ([0, 0, 0] : List Byte).length ≠ point.length ∧
    (let s := held.withDeferred (List.replicate 32 ⟨9, 0, 0, []⟩);
      s.passes 1 point 7 ∧ (s.zone 3).freeze ≠ none ∧ s.deferredOf 1 = none ∧ 32 ≤ s.deferred.length) :=
  ⟨image_hears _ _ _ (by decide), .inr rfl, by decide +kernel, by decide +kernel, rfl, by decide +kernel,
    by decide +kernel, by decide +kernel, by decide +kernel, image_finds _ _ _ rfl rfl, by decide, by decide, by decide,
    .inr ⟨6, by decide +kernel, by decide⟩, by decide +kernel, by decide +kernel, by decide⟩

theorem witness_PublishCreatesARecord :
    demo.Hears demo.port.ownAddress 7 ∧ ([1] : List Byte) ≠ [] ∧ (List.replicate 8 (1 : Byte)).length ≤ 8 ∧
    (0x3A0103 : Tag) ≠ 0 ∧ zoneOf 0x3A0103 = 3 ∧ (demo.zone 3).status = .active ∧ (demo.zone 3).admission = .opened ∧
    (demo.zone 3).freeze = none ∧ (demo.zone 3).count < (demo.zone 3).quota ∧ demo.lookup 0x3A0103 = none ∧
    demo.freeQueue.head? = some 0 :=
  ⟨image_hears _ _ _ (by decide), by decide +kernel⟩

theorem witness_PublishAppliesAnUpdate :
    demo.Hears demo.port.ownAddress 7 ∧ demo.Finds 0x3A0102 1 point ∧ point.tag = 0x3A0102 ∧
    point.producer = .node 7 ∧ ([0, 0, 2, 0x58] : List Byte).length = point.length ∧ demo.passes 1 point 7 ∧
    demo.passes 1 point 133 ∧ (image fading zone3 1600).passes 1 fading 6 ∧ (demo.zone 3).freeze = none :=
  ⟨image_hears _ _ _ (by decide), image_finds _ _ _ rfl rfl, rfl, rfl, rfl, .inr ⟨6, rfl, by decide⟩,
    .inr ⟨6, rfl, by decide⟩, .inl rfl, by decide +kernel⟩

theorem witness_PublishRenewsParksOrIsOld :
    demo.Hears demo.port.ownAddress 7 ∧ demo.Finds 0x3A0102 1 point ∧ point.tag = 0x3A0102 ∧
    point.producer = .node 7 ∧ demo.reference 1 point = some 6 ∧ seqClass 6 6 = .duplicate ∧ seqClass 6 134 = .older ∧
    seqClass 6 5 = .older ∧
    (let s := held.withDeferred (List.replicate 31 ⟨9, 0, 0, []⟩);
      s.passes 1 point 7 ∧ (s.zone 3).freeze ≠ none ∧ s.deferredOf 1 = none ∧ s.deferred.length < 32) ∧
    held.passes 1 point 8 ∧ (held.zone 3).freeze ≠ none ∧ (held.deferredOf 1).isSome = true ∧
    (held.deferredOf 1).map (·.sequence) = some 7 ∧ demo.deferredOf 1 = none ∧ point.state = .live ∧
    fading.state = .stale :=
  ⟨image_hears _ _ _ (by decide), image_finds _ _ _ rfl rfl, rfl, rfl, rfl, by decide, by decide, by decide,
    ⟨.inr ⟨6, by decide +kernel, by decide⟩, by decide +kernel, by decide +kernel, by decide⟩,
    .inr ⟨7, by decide +kernel, by decide⟩, by decide +kernel⟩

theorem witness_WithdrawRetiresOrIsRefused :
    demo.Hears 1 7 ∧ demo.Hears 1 8 ∧ demo.Finds 0x3A0102 1 point ∧ point.producer = .node 7 ∧
    point.producer ≠ .node 8 ∧ (demo.zone (zoneOf 0x3A0102)).freeze = none ∧
    (held.zone (zoneOf 0x3A0102)).freeze ≠ none ∧ (demo.zone (zoneOf 0x100001)).status = .disabled ∧
    (demo.zone (zoneOf 0x3A0103)).status = .active ∧ demo.lookup 0x3A0103 = none :=
  ⟨image_hears _ _ _ (by decide), image_hears _ _ _ (by decide), image_finds _ _ _ rfl rfl, by decide +kernel⟩

/-- A record with a full subscriber list. -/
def crowded : Record := { point with subscribers := [⟨12, false⟩, ⟨13, false⟩, ⟨14, true⟩, ⟨15, false⟩] }

theorem witness_SubscribeAndUnsubscribe :
    demo.Hears 1 12 ∧ demo.Hears 1 9 ∧ demo.Finds 0x3A0102 1 point ∧
    (image crowded zone3 0).Finds 0x3A0102 1 crowded ∧ 12 ∈ point.subscribers.map (·.node) ∧
    9 ∉ crowded.subscribers.map (·.node) ∧ 4 ≤ crowded.subscribers.length ∧ 9 ∉ point.subscribers.map (·.node) ∧
    point.subscribers.length < 4 ∧ (demo.withPoolFree 0).poolFree = 0 ∧ 0 < demo.poolFree ∧
    crowded.subscribers = [⟨12, false⟩, ⟨13, false⟩] ++ ⟨14, true⟩ :: [⟨15, false⟩] ∧
    (demo.zone (zoneOf 0x100001)).status = .disabled ∧ demo.lookup 0x3A0103 = none :=
  ⟨image_hears _ _ _ (by decide), image_hears _ _ _ (by decide), image_finds _ _ _ rfl rfl, image_finds _ _ _ rfl rfl,
    by decide +kernel⟩

theorem witness_QueryIsAnsweredFromTheWalk :
    demo.Hears 1 9 ∧ 24 ≤ (demo.withAnswers (confirms 24)).answers.length ∧
    (demo.withAnswers (confirms 23)).answers.length < 24 ∧ ([0, 0, 0, 0, 0, 0] : List Byte).length ≠ 7 ∧
    (4 : Nat) < (5 : Byte).toNat ∧ (4 : Byte).toNat ≤ 4 ∧
    demo.walk 0x300000 0xF00000 0 1 = ([⟨0x3A0102, 1⟩], false) ∧ demo.walk 0x300000 0xF00000 0x3A0102 1 = ([], false) :=
  ⟨image_hears _ _ _ (by decide), by decide +kernel⟩

theorem witness_JoiningTheLine :
    let joining := demo.withPort { demo.port with state := .joining, quietTime := 249 }
    let s := taking [0x0D00] State.reset
    (joining.port.state = .joining ∧ joining.port.state ≠ .offline ∧ joining.port.stopPending = false ∧
      joining.transmitter = none ∧ joining.port.underWay = none ∧
      2 * joining.port.bitRate.bitsPerMilli ≤ joining.port.quietTime + 1) ∧
    (s.canTake .busStart ⟨[0x0D00], false⟩ ∧ s.port.state = .offline ∧ s.settings.ownAddress = 0) ∧
    (taking [0x0D00] demo).canTake .busStart ⟨[0x0D00], false⟩ ∧
    (let u := taking [0x0D00] (.powerOn ⟨62, 3⟩);
      u.canTake .busStart ⟨[0x0D00], false⟩ ∧ u.port.state = .offline ∧ u.settings.ownAddress ≠ 0 ∧
        u.settings.ownAddress ≠ 63) :=
  ⟨⟨rfl, by decide, rfl, rfl, rfl, by decide⟩, ⟨⟨rfl, rfl⟩, rfl, rfl⟩, ⟨rfl, rfl⟩, ⟨rfl, rfl⟩, rfl, by decide, by decide⟩

/-- A part in an attempt with a CONFIRM to node 7. -/
def sending : State :=
  let a : Answer := ⟨.confirm 5 .ok, 7, 0x3A0102, 1600, 0, true⟩
  (demo.withAnswers [a]).withTransmitter (some (demo.bindAnswer a))

theorem witness_BusStopEmptiesTheQueue :
    let b : Block := ⟨[0x0E00], false⟩
    ((taking [0x0E00] State.reset).canTake .busStop b ∧ State.reset.port.state = .offline) ∧
    ((taking [0x0E00] sending).canTake .busStop b ∧ sending.port.state = .online ∧ sending.transmitter ≠ none) ∧
    ((taking [0x0E00] demo).canTake .busStop b ∧ demo.port.state = .online ∧ demo.transmitter = none) ∧
    (let s := after .busStop (taking [0x0E00] sending);
      s.port.stopPending = true ∧ s.host.commands.head? = some b ∧
      s.transmitter = some (demo.bindAnswer ⟨.confirm 5 .ok, 7, 0x3A0102, 1600, 0, true⟩) ∧
      (s.transmitter.bind fun f => f.bits[3]?) = some true ∧ (s.transmitter.bind fun f => f.bits[0]?) = some false) ∧
    (sending.answers.find? (·.started)).map (·.faultCount) = some 0 ∧
    (([⟨.confirm 5 .ok, 7, 0x3A0102, 1600, 2, true⟩] : List Answer).find? (·.started)).map (·.faultCount) = some 2 :=
  ⟨⟨⟨rfl, rfl⟩, rfl⟩, ⟨⟨rfl, rfl⟩, by decide +kernel⟩, ⟨⟨rfl, rfl⟩, by decide +kernel⟩, by decide +kernel,
    by decide +kernel⟩

theorem witness_AttemptStartBindsTheCandidate :
    let n : Answer := ⟨.notify ⟨1, 4⟩ false, 12, 0x3A0102, 1550, 0, false⟩
    let c : Answer := ⟨.confirm 5 .ok, 7, 0x3A0102, 1549, 0, false⟩
    (∃ t, exec (.busOnline 11) demo = .next t) ∧
    demo.answers = [] ∧ sending.transmitter ≠ none ∧ State.reset.port.state ≠ .online ∧
    (quietFor 10 0).port.quietTime < 11 ∧
    (let s := quietFor 11 0;
      s.transmitter = none ∧ s.port.state = .online ∧ s.port.stopPending = false ∧ s.port.underWay = none ∧
        11 ≤ s.port.quietTime) ∧
    (isCandidate c [n] [] ∧ demo.settings.answerLifetime < demo.timeBase - c.enqueueTime ∧ c.isNotify = false) ∧
    (isCandidate n [] [] ∧ demo.timeBase - n.enqueueTime ≤ demo.settings.answerLifetime) := by
  refine ⟨⟨_, rfl⟩, rfl, by decide +kernel, by decide, by decide, by decide +kernel, ⟨.inl ⟨rfl, rfl⟩, by decide, rfl⟩,
    ⟨.inr ⟨rfl, rfl⟩, by decide⟩⟩

theorem witness_AnswersBindToTheImage :
    demo.record (1 : SlotIx) = some point ∧ demo.incarnation 1 = 4 ∧ demo.record 2 = none ∧ demo.incarnation 1 ≠ 5 := by
  decide +kernel

theorem witness_AttemptEndsSettleTheEntry :
    let a : Answer := ⟨.notify ⟨1, 4⟩ true, 12, 0x3A0102, 1600, 2, true⟩
    let f := demo.bindAnswer a
    let s := ((quietFor 11 0).withAnswers [a]).withTransmitter (some f)
    s.transmitter = some f ∧ s.port.stopPending = false ∧ s.answers = [] ++ a :: [] ∧ a.started = true ∧
    s.port.state = .online ∧ s.port.underWay = none ∧ 11 ≤ s.port.quietTime ∧ f.payload.length ≤ 8 ∧
    f.bits[11]? = some true ∧ f.bits[2]? = some true ∧ f.bits[0]? = some false ∧ f.bits[12]? = some true ∧
    f.bits[13]? = some false ∧ 2 ≤ a.faultCount ∧ { a with faultCount := 1 }.faultCount < 2 ∧
    s.waits ⟨1, 4⟩ 12 = false ∧
    (demo.withAnswers [a, { a with started := false }]).waits ⟨1, 4⟩ 12 = true := by
  decide +kernel

theorem witness_StagingBuffer : State.reset.host.stagingPointer < 8 ∧
    ({ State.reset.host with stagingPointer := 8 } : HostUnit).stagingPointer = 8 ∧
    State.reset.host.commands.length < 4 ∧ 1 ≤ (8 : Word).toNat ∧ (8 : Word).toNat ≤ 8 ∧ HostSound held ∧
    ∃ t, step held = .next t :=
  ⟨by decide, rfl, by decide, by decide, by decide, held_host, _, rfl⟩

theorem witness_SubmissionCopiesTheStagedWords :
    4 ≤ ({ State.reset.host with commands := List.replicate 4 ⟨[0x0D00], false⟩ } : HostUnit).commands.length ∧
    ({ State.reset.host with commands := List.replicate 3 ⟨[0x0D00], false⟩ } : HostUnit).commands.length < 4 ∧
    (0 : Word).toNat = 0 ∧ 8 < (9 : Word).toNat := by
  decide

theorem witness_CompletionAndMailboxAccesses : State.reset.host.completions = [] ∧
    (after .thaw (taking [0x0B00, 3] demo)).host.completions.length = 1 ∧
    (after (.attention 5 0) demo).maint.mailbox = some 5 ∧ demo.maint.mailbox = none := by
  decide +kernel

theorem witness_HostRegistersAsTheyRead : State.reset.host.completions = [] ∧
    (after .thaw (taking [0x0B00, 3] demo)).host.completions.length = 1 ∧
    (after (.attention 5 0) demo).maint.mailbox = some 5 := by
  decide +kernel

theorem witness_TakingAndCompletingACommand :
    State.reset.takeable = none ∧
    (let b : Block := ⟨[0x1200], false⟩;
      (taking [0x1200] demo).takeable = some b ∧ b.named = none) ∧
    (let b : Block := ⟨[0x0E00, 0], false⟩;
      (taking [0x0E00, 0] demo).takeable = some b ∧ b.named = some .busStop ∧ 2 ∉ HostKind.busStop.wordCounts) := by
  decide +kernel

theorem witness_CreateFillsTheHeadSlot :
    let ws : List Word := [0x0100, 0x3A, 0x0103, 0x083E]
    let b : Block := ⟨ws, false⟩
    (taking ws demo).canTake .create b ∧ b.length = 8 ∧ b.producer = 62 ∧ b.tag = 0x3A0103 ∧ b.tag ≠ 0 ∧
    (demo.zone (zoneOf b.tag)).status = .active ∧ demo.lookup b.tag = none ∧ (demo.zone 3).freeze = none ∧
    (demo.zone 3).count < (demo.zone 3).quota ∧ demo.freeQueue.head? = some 0 ∧
    (demo.lookup 0x3A0102).isSome = true ∧ (⟨[0x0100, 0, 0, 0x093F], false⟩ : Block).length = 9 ∧
    (⟨[0x0100, 0, 0, 0x093F], false⟩ : Block).producer = 63 ∧ (held.zone 3).freeze ≠ none ∧
    ((image point { zone3 with quota := 1 } 0).zone 3).quota ≤ 1 :=
  ⟨⟨rfl, rfl⟩, by decide +kernel⟩

theorem witness_RecordCommandsOnAnAbsentRecord :
    (taking [0x0200, 0, 0] demo).canTake .retire ⟨[0x0200, 0, 0], false⟩ ∧
    (⟨[0x0200, 0, 0], false⟩ : Block).tag = 0 ∧
    (taking [0x0600, 0x10, 1] demo).canTake .read ⟨[0x0600, 0x10, 1], false⟩ ∧
    (demo.zone (zoneOf 0x100001)).status = .disabled ∧ demo.lookup 0x3A0103 = none ∧
    HostKind.read ∈ [HostKind.retire, .write, .force, .unforce, .read] :=
  ⟨⟨rfl, rfl⟩, by decide, ⟨rfl, rfl⟩, by decide +kernel⟩

theorem witness_RecordCommandsOnARecord :
    let own := { point with producer := .host }
    let forced := { point with forcedValue := some [0, 0, 0, 0] }
    let ws : List Word := [0x0300, 0x3A, 0x0102, 0x0400, 0, 0, 0, 0]
    (taking [0x0200, 0x3A, 0x0102] demo).canTake .retire ⟨[0x0200, 0x3A, 0x0102], false⟩ ∧
    (taking ws (image own zone3 0)).canTake .write ⟨ws, false⟩ ∧
    (image own zone3 0).Finds 0x3A0102 1 own ∧ (⟨ws, false⟩ : Block).tag = own.tag ∧
    (⟨ws, false⟩ : Block).length = own.length ∧ own.producer = .host ∧ point.producer ≠ .host ∧
    (image forced zone3 0).Finds 0x3A0102 1 forced ∧
    (taking [0x0500, 0x3A, 0x0102] (image forced zone3 0)).canTake .unforce ⟨[0x0500, 0x3A, 0x0102], false⟩ ∧
    forced.forcedValue ≠ none ∧ point.forcedValue = none ∧ (demo.zone 3).freeze = none ∧ (held.zone 3).freeze ≠ none :=
  ⟨⟨rfl, rfl⟩, ⟨rfl, rfl⟩, image_finds _ _ _ rfl rfl, by decide, by decide, rfl, by decide, image_finds _ _ _ rfl rfl,
    ⟨rfl, rfl⟩, by decide, rfl, by decide +kernel⟩

theorem witness_VisibleImageOfARecord :
    ({ point with forcedValue := some [0, 0, 0, 0] } : Record).forcedValue = some [0, 0, 0, 0] ∧
    point.forcedValue = none ∧ fading.state = .stale ∧ point.state = .live ∧
    ({ point with processValue := none } : Record).processValue = none := by
  decide

theorem witness_ReadReportsTheRecord :
    (taking [0x0600, 0x3A, 0x0102] demo).canTake .read ⟨[0x0600, 0x3A, 0x0102], false⟩ ∧
    demo.Finds 0x3A0102 1 point ∧ point.leaseDeadline = some 4500 ∧ 4500 ≤ demo.timeBase + 60000 ∧
    fading.leaseDeadline = none :=
  ⟨⟨rfl, rfl⟩, image_finds _ _ _ rfl rfl, rfl, by decide, rfl⟩

theorem witness_ListReportsTheWalk :
    let ws : Nat → List Word := fun n => [0x0700, 0x30, 0, 0xF0, 0, 0, 0, BitVec.ofNat 16 n]
    ∀ n ∈ [0, 1, 6, 7], (taking (ws n) demo).canTake .list ⟨ws n, false⟩ ∧
      ((⟨ws n, false⟩ : Block).word 7).toNat = n := by
  intro ws n hn
  fin_cases hn <;> exact ⟨⟨by decide +kernel, by decide⟩, by decide⟩

theorem witness_SetZoneChecksAndWrites :
    let ws : List Word := [0x0800, 3, 0x0101, 512, 6000, 6000]
    let b : Block := ⟨ws, false⟩
    (taking ws demo).canTake .setZone b ∧ (b.word 1).toNat = (3 : ZoneIx).val ∧ (b.word 3).toNat = 512 ∧
    (demo.zone 3).count ≤ 512 ∧ (demo.zone 3).freeze = none ∧ (held.zone 3).freeze ≠ none ∧ 0 < (demo.zone 3).count ∧
    (⟨[0x0800, 16, 0x0202, 513, 6001, 6001], false⟩ : Block).word 1 = 16 ∧
    ((List.finRange 16).map fun y => if y = 3 then 512 else
      if (demo.zone y).status = .active then (demo.zone y).quota else 0).sum = 512 :=
  ⟨⟨rfl, rfl⟩, by decide +kernel⟩

theorem witness_ZoneStatusAndFreeze :
    (taking [0x0900, 3] held).canTake .zoneStatus ⟨[0x0900, 3], false⟩ ∧
    (taking [0x0A00, 15] demo).canTake .freeze ⟨[0x0A00, 15], false⟩ ∧
    (taking [0x0B00, 16] demo).canTake .thaw ⟨[0x0B00, 16], false⟩ ∧ 15 < (16 : Word).toNat ∧
    (15 : Word).toNat = (15 : ZoneIx).val ∧ (demo.zone 15).status = .disabled ∧ (demo.zone 3).status = .active ∧
    (demo.zone 3).freeze = none ∧ (held.zone 3).freeze = some 2100 ∧ 2100 ≤ held.timeBase + 2550 :=
  ⟨⟨rfl, rfl⟩, ⟨rfl, rfl⟩, ⟨rfl, rfl⟩, by decide +kernel⟩

theorem witness_SettingsAndMaintenanceMode :
    let ws : List Word := [0x0C00, 62, 3, 255, 255]
    (taking ws State.reset).canTake .setDevice ⟨ws, false⟩ ∧ State.reset.port.state = .offline ∧
    (taking ws demo).canTake .setDevice ⟨ws, false⟩ ∧ demo.port.state ≠ .offline ∧
    (taking [0x0C00, 63, 4, 0, 256] demo).canTake .setDevice ⟨[0x0C00, 63, 4, 0, 256], false⟩ ∧
    (taking [0x1100, 1] demo).canTake .setMaintMode ⟨[0x1100, 1], false⟩ ∧
    (taking [0x1100, 2] demo).canTake .setMaintMode ⟨[0x1100, 2], false⟩ :=
  ⟨⟨rfl, rfl⟩, rfl, ⟨rfl, rfl⟩, by decide, ⟨rfl, rfl⟩, ⟨rfl, rfl⟩, ⟨rfl, rfl⟩⟩

theorem witness_ClearTableEmptiesTheImage :
    (taking [0x0F00] held).canTake .clearTable ⟨[0x0F00], false⟩ := ⟨rfl, rfl⟩

theorem witness_CountersAreReportedAndCleared : ∀ n ∈ [0, 1, 2],
    (taking [0x1000, BitVec.ofNat 16 n] demo).canTake .counters ⟨[0x1000, BitVec.ofNat 16 n], false⟩ := by
  intro n hn
  fin_cases hn <;> exact ⟨rfl, rfl⟩

theorem witness_EdgesRecoveriesAndTimeouts :
    (let s := demo.withMaint { Maint.reset with position := 46, onesCount := 62, lastEdge := 1599 };
      s.maint.position < 47 ∧ s.maint.onesCount < 63 ∧ s.timeBase < s.maint.lastEdge + 2) ∧
    ({ Maint.reset with position := 47 } : Maint).position = 47 ∧
    63 ≤ ({ Maint.reset with onesCount := 63 } : Maint).onesCount ∧
    (let s := (image point zone3 2).withMaint { Maint.reset with position := 1 };
      0 < s.maint.position ∧ s.maint.lastEdge + 2 ≤ s.timeBase) ∧
    (let s := (image point zone3 1).withMaint { Maint.reset with position := 1 };
      s.timeBase < s.maint.lastEdge + 2) := by
  decide +kernel

theorem witness_RequestsAnsweredAtTheirFrameEnd :
    demo.maint.position = 0 ∧ demo.maint.poke = .idle ∧ demo.aligned (0xFF#8 ++ BitVec.allOnes 40) ∧
    demo.aligned (0x06#8 ++ 0#40) ∧ demo.maint.mailbox = none ∧ (after (.attention 5 0) demo).maint.mailbox = some 5 :=
  ⟨rfl, rfl, ⟨rfl, by decide +kernel⟩, ⟨rfl, by decide +kernel⟩, rfl, by decide +kernel⟩

theorem witness_PeekZoneReportsTheEntry :
    demo.maint.position = 0 ∧ demo.maint.poke = .idle ∧ 15 < (16 : Word).toNat ∧
    (15 : Word).toNat = (15 : ZoneIx).val := by
  decide

theorem witness_PeekReportsAFieldGroup :
    demo.maint.position = 0 ∧ demo.maint.poke = .idle ∧ 511 < (512 : Word).toNat ∧ 8 < (9 : Byte).toNat ∧
    (511 : Word).toNat = (511 : SlotIx).val ∧ demo.record 511 = none ∧ demo.record 1 = some point := by
  decide +kernel

theorem witness_PokeTakesFourFrames :
    let s := demo.withMaint { Maint.reset with mode := .service, poke := .awaitData 1 2 4 }
    let short := { point with length := 4 }
    (demo.maint.position = 0 ∧ demo.maint.poke = .idle) ∧ (s.maint.poke = .awaitData 1 2 4 ∧ s.aligned 0) ∧
    (1 : Word).toNat = (1 : SlotIx).val ∧ s.maint.mode = .service ∧ demo.maint.mode = .observe ∧
    s.record 1 = some point ∧ s.incarnation 1 = 4 ∧ (s.zone 3).freeze = none ∧ s.record 2 = none ∧
    short.length ≤ 4 ∧ (after (.pokeDataFrame 0) s).maint.poke = .decided 1 2 4 none ∧
    (after (.pokeReadBack 0) (after (.pokeDataFrame 0) s)).maint.poke = .readBack :=
  ⟨⟨rfl, rfl⟩, ⟨rfl, rfl, by decide +kernel⟩, by decide +kernel⟩

end Sys2Proof.Tests
end

section
/-! PROOF. Masked matching, the exact lookup and the match walk of the tag directory (chapter 2), and the two requests that
are answered from a walk: QUERY (section 8.6) and LIST (section 10.7). -/

namespace Sys2Proof.Machine

variable {s : State} {p m a t : Tag} {n : Nat}

/-! ## Masked matching (R29) and the zone of a tag (R37) -/

theorem tagMatches_iff_and_eq (p m t : Tag) : tagMatches p m t = true ↔ t &&& m = p &&& m := by
  simp [tagMatches]

theorem tagMatches_iff_bits (p m t : Tag) :
    tagMatches p m t = true ↔ ∀ k, k < 24 → m.getLsbD k = true → t.getLsbD k = p.getLsbD k := by
  rw [tagMatches_iff_and_eq]
  constructor
  · intro h k _ hm
    have hk : (t &&& m).getLsbD k = (p &&& m).getLsbD k := by rw [h]
    simpa [hm] using hk
  · intro h
    refine BitVec.eq_of_getLsbD_eq fun k hk => ?_
    cases hm : m.getLsbD k
    · simp [hm]
    · simp [hm, h k hk hm]

theorem tagMatches_allOnes (p t : Tag) : tagMatches p 0xFFFFFF t = true ↔ t = p := by
  have hones : (0xFFFFFF : Tag) = BitVec.allOnes 24 := by decide
  rw [tagMatches_iff_and_eq, hones, BitVec.and_allOnes, BitVec.and_allOnes]

theorem tagMatches_zero (p t : Tag) : tagMatches p 0 t = true := by
  rw [tagMatches_iff_and_eq]
  exact (BitVec.and_zero).trans BitVec.and_zero.symm

theorem tagMatches_congr {p p' m : Tag} (h : ∀ k, k < 24 → m.getLsbD k = true → p.getLsbD k = p'.getLsbD k) (t : Tag) :
    tagMatches p m t = tagMatches p' m t := by
  have hp : p &&& m = p' &&& m := (tagMatches_iff_and_eq p' m p).mp ((tagMatches_iff_bits p' m p).mpr h)
  simp only [tagMatches, hp]

theorem zoneOf_val (t : Tag) : (zoneOf t).val = t.toNat / 2 ^ 20 := by
  have hdigit : (zoneOf t).val = (t.toNat >>> 20) % 2 ^ 4 := BitVec.extractLsb'_toNat ..
  rw [hdigit, Nat.shiftRight_eq_div_pow]
  have := t.isLt
  omega

/-! ## The exact lookup (R25) -/

/-- In a list that rises strictly by tag, the entry that is found for a tag is the only one that has it. -/
theorem find_tag_eq_some {l : List DirEntry} (h : l.Pairwise fun x y => x.tag < y.tag) (e : DirEntry) :
    l.find? (fun d => d.tag = e.tag) = some e ↔ e ∈ l := by
  constructor
  · exact List.mem_of_find?_eq_some
  · intro he
    induction h with
    | nil => cases he
    | cons hd _ ih =>
      rcases List.mem_cons.mp he with rfl | he
      · simp
      · rw [List.find?_cons_of_neg, ih he]
        simpa using (BitVec.ne_of_lt (hd e he))

theorem lookup_eq_some_iff {i : SlotIx} (h : s.directory.Pairwise fun x y => x.tag < y.tag) :
    s.lookup t = some i ↔ ⟨t, i⟩ ∈ s.directory := by
  rw [← find_tag_eq_some h, State.lookup, Option.map_eq_some_iff]
  constructor
  · rintro ⟨d, hd, rfl⟩
    have ht : d.tag = t := by simpa using List.find?_some hd
    subst ht
    exact hd
  · exact fun hd => ⟨_, hd, rfl⟩

/-- Settles O17: matching is equality under the mask, and the directory holds each tag once. -/
theorem tagMatching : Obligations.TagMatching :=
  ⟨tagMatches_iff_bits, tagMatches_allOnes, tagMatches_zero, fun _ _ _ t h => tagMatches_congr h t, zoneOf_val,
    fun _ t i hs => (lookup_eq_some_iff hs.ascending).trans (hs.entries t i)⟩

/-! ## The match walk (R30, R31, R34) -/

theorem mem_matchesBeyond {e : DirEntry} :
    e ∈ s.matchesBeyond p m a ↔ e ∈ s.directory ∧ tagMatches p m e.tag = true ∧ a < e.tag := by
  simp [State.matchesBeyond]

theorem matchesBeyond_ascending (h : s.directory.Pairwise fun x y => x.tag < y.tag) (p m a : Tag) :
    (s.matchesBeyond p m a).Pairwise fun x y => x.tag < y.tag := h.filter _

/-- Starting later leaves the matches that lie beyond the later tag. -/
theorem matchesBeyond_of_lt {c : Tag} (h : a < c) :
    s.matchesBeyond p m c = (s.matchesBeyond p m a).filter fun e => decide (c < e.tag) := by
  unfold State.matchesBeyond
  rw [List.filter_filter]
  refine List.filter_congr fun e _ => ?_
  have himp : c < e.tag → a < e.tag := BitVec.lt_trans h
  by_cases hc : c < e.tag
  · simp [hc, himp hc]
  · simp [hc]

/-- What a walk returns and what it leaves make up the matches beyond the start, and MORE is given exactly when something is
left. -/
theorem walk_split {es : List DirEntry} {more : Bool} (h : s.walk p m a n = (es, more)) :
    ∃ rest, s.matchesBeyond p m a = es ++ rest ∧ es.length = min n (s.matchesBeyond p m a).length ∧
      (more = true ↔ rest ≠ []) := by
  obtain ⟨rfl, rfl⟩ := Prod.mk.inj h
  exact ⟨_, (List.take_append_drop n _).symm, List.length_take, by simp⟩

theorem tag_le_getLast {es : List DirEntry} (h : es.Pairwise fun x y => x.tag < y.tag) {e : DirEntry}
    (he : e ∈ es.getLast?) : ∀ x ∈ es, x.tag ≤ e.tag := by
  obtain ⟨init, rfl⟩ := List.getLast?_eq_some_iff.mp he
  obtain ⟨-, -, hlast⟩ := List.pairwise_append.mp h
  intro x hx
  rcases List.mem_append.mp hx with hx | hx
  · exact BitVec.le_of_lt (hlast x hx e (List.mem_singleton_self e))
  · rw [List.mem_singleton.mp hx]
    exact BitVec.le_refl _

/-- A walk that starts after the last returned tag finds what was left (R34). -/
theorem matchesBeyond_last {es rest : List DirEntry} (h : s.directory.Pairwise fun x y => x.tag < y.tag)
    (hsplit : s.matchesBeyond p m a = es ++ rest) {e : DirEntry} (he : e ∈ es.getLast?) :
    s.matchesBeyond p m e.tag = rest := by
  have hasc := matchesBeyond_ascending h p m a
  rw [hsplit, List.pairwise_append] at hasc
  obtain ⟨hes, -, hacross⟩ := hasc
  have hmem : e ∈ es := List.mem_of_getLast? he
  obtain ⟨-, -, hbeyond⟩ : e ∈ s.directory ∧ tagMatches p m e.tag = true ∧ a < e.tag :=
    mem_matchesBeyond.mp (hsplit ▸ List.mem_append_left rest hmem)
  have hreturned : es.filter (fun x => decide (e.tag < x.tag)) = [] :=
    List.filter_eq_nil_iff.mpr fun x hx => by simpa using tag_le_getLast hes he x hx
  have hleft : rest.filter (fun x => decide (e.tag < x.tag)) = rest :=
    List.filter_eq_self.mpr fun x hx => decide_eq_true (hacross e hmem x hx)
  rw [matchesBeyond_of_lt hbeyond, hsplit, List.filter_append, hreturned, hleft, List.nil_append]

/-- Settles O18: the matches beyond the start rise strictly, and a walk cuts them into the returned and the left ones. -/
theorem matchWalkGivesTheFirstMatches : Obligations.MatchWalkGivesTheFirstMatches := by
  intro s p m a n hasc _ es more hwalk
  obtain ⟨rest, hsplit, hlen, hmore⟩ := walk_split hwalk
  have hparts := matchesBeyond_ascending hasc p m a
  rw [hsplit, List.pairwise_append] at hparts
  obtain ⟨hes, -, hacross⟩ := hparts
  have hmem : ∀ e, e ∈ es ∨ e ∈ rest ↔ e ∈ s.directory ∧ tagMatches p m e.tag = true ∧ a < e.tag := fun e => by
    rw [← List.mem_append, ← hsplit, mem_matchesBeyond]
  refine ⟨hes, fun e he => (hmem e).mp (.inl he), ?count, ?beyond, ?more, ?short, ?continues⟩
  case count => rw [hlen, State.matchesBeyond, List.countP_eq_length_filter]
  case beyond =>
    intro e hd hm ha hnot x hx
    exact hacross x hx e (((hmem e).mpr ⟨hd, hm, ha⟩).resolve_left hnot)
  case more =>
    rw [hmore]
    constructor
    · intro hrest
      obtain ⟨e, he⟩ := List.exists_mem_of_ne_nil rest hrest
      obtain ⟨hd, hm, ha⟩ := (hmem e).mp (.inr he)
      exact ⟨e, hd, hm, ha, fun x hx => hacross x hx e he⟩
    · rintro ⟨e, hd, hm, ha, hlast⟩
      have hnot : e ∉ es := fun he => BitVec.lt_irrefl _ (hlast e he)
      exact List.ne_nil_of_mem (((hmem e).mpr ⟨hd, hm, ha⟩).resolve_left hnot)
  case short =>
    intro hn
    have hall : es.length = (es ++ rest).length := by rw [← hsplit]; omega
    have hrest : rest = [] := List.length_eq_zero_iff.mp (by rw [List.length_append] at hall; omega)
    exact Bool.eq_false_iff.mpr fun h => hmore.mp h hrest
  case continues =>
    intro e he
    rw [matchesBeyond_last hasc hsplit he, hsplit]

/-! ## QUERY (R127, R128) -/

theorem append_eq_append_iff {v w : Nat} {x x' : BitVec v} {y y' : BitVec w} : x ++ y = x' ++ y' ↔ x = x' ∧ y = y' := by
  constructor
  · intro h
    have hx := congrArg (BitVec.extractLsb' w v) h
    have hy := congrArg (BitVec.extractLsb' 0 w) h
    rw [BitVec.extractLsb'_append_eq_left, BitVec.extractLsb'_append_eq_left] at hx
    rw [BitVec.extractLsb'_append_eq_right, BitVec.extractLsb'_append_eq_right] at hy
    exact ⟨hx, hy⟩
  · rintro ⟨rfl, rfl⟩
    rfl

theorem tagOfBytes_eq_allOnes (x y z : Byte) : tagOfBytes x y z = 0xFFFFFF ↔ x = 0xFF ∧ y = 0xFF ∧ z = 0xFF := by
  have hones : (0xFFFFFF : Tag) = tagOfBytes 0xFF 0xFF 0xFF := by decide
  rw [hones, tagOfBytes, tagOfBytes, append_eq_append_iff, append_eq_append_iff, and_assoc]

theorem badQuery_of_length {v : List Byte} (h : v.length ≠ 7) (p : Tag) : badQuery p v = true := by
  simp [badQuery, h]

/-- Seven bytes are bad by their limit, or as the one pattern and mask that can match only tag 000000. -/
theorem badQuery_iff (p : Tag) (m0 m1 m2 a0 a1 a2 l : Byte) : badQuery p [m0, m1, m2, a0, a1, a2, l] = true ↔
    l = 0 ∨ 4 < l.toNat ∨ (p = 0 ∧ m0 = 0xFF ∧ m1 = 0xFF ∧ m2 = 0xFF) := by
  have hzero : l.toNat = 0 ↔ l = 0 := BitVec.toNat_inj (y := 0)
  have hmask : queryMask [m0, m1, m2, a0, a1, a2, l] = 0xFFFFFF ↔ m0 = 0xFF ∧ m1 = 0xFF ∧ m2 = 0xFF :=
    tagOfBytes_eq_allOnes m0 m1 m2
  have hlimit : queryLimit [m0, m1, m2, a0, a1, a2, l] = l.toNat := rfl
  simp only [badQuery, Bool.or_eq_true, Bool.and_eq_true, decide_eq_true_eq, hlimit, hmask, hzero]
  simp [or_assoc]

/-- The REPLY body for an entry of a walk, whose last entry carries MORE or END. -/
def replyBody (s : State) (more last : Bool) (e : DirEntry) : AnswerBody × Tag :=
  (.reply (some ⟨e.slot, s.incarnation e.slot⟩) (last && more) (last && !more) false, e.tag)

theorem replyBodies_eq_zipIdx (s : State) (more : Bool) (es : List DirEntry) (k : Nat) :
    replyBodies s more es =
      (es.zipIdx k).map fun x => replyBody s more (decide (x.2 + 1 = k + es.length)) x.1 := by
  induction es generalizing k with
  | nil => rfl
  | cons e es ih =>
    cases es with
    | nil => simp [replyBodies, replyBody]
    | cons d ds =>
      have hhead : replyBodies s more (e :: d :: ds) = replyBody s more false e :: replyBodies s more (d :: ds) := rfl
      have hlen : k + 1 + (d :: ds).length = k + (e :: d :: ds).length := by
        simp only [List.length_cons]
        omega
      have hnotLast : decide (k + 1 = k + (e :: d :: ds).length) = false := by simp
      simp only [hhead, ih (k + 1), hlen, List.zipIdx_cons, List.map_cons, hnotLast]

/-- Bodies that join one by one stand behind the queue in their order. -/
theorem foldl_joinAnswers (n : Addr) (bs : List (AnswerBody × Tag)) (s : State) :
    bs.foldl (fun u b => joinAnswers b.1 n b.2 u) s =
      s.withAnswers (s.answers ++ bs.map fun b => ⟨b.1, n, b.2, s.timeBase, 0, false⟩) := by
  induction bs generalizing s with
  | nil => simp [State.withAnswers]
  | cons b bs ih =>
    rw [List.foldl_cons, ih]
    simp [joinAnswers, State.withAnswers]

theorem doQuery_full (src : Addr) (p : Tag) (v : List Byte) (h : 24 ≤ s.answers.length) :
    doQuery src p v s = s.count .queryDropped := by
  simp [doQuery, Nat.sub_eq_zero_of_le h]

theorem doQuery_bad {p : Tag} {v : List Byte} (src : Addr) (h : s.answers.length < 24) (hb : badQuery p v = true) :
    doQuery src p v s = joinAnswers (.reply none false false true) src p s := by
  have hfree : ¬ 24 - s.answers.length = 0 := by omega
  simp [doQuery, hfree, hb]

/-- The part of a sound QUERY behind its walk (R128). -/
theorem doQuery_walk {p : Tag} {v : List Byte} (src : Addr) (h : s.answers.length < 24) (hb : badQuery p v = false)
    {es : List DirEntry} {more : Bool}
    (hw : s.walk p (queryMask v) (queryAfter v) (min (queryLimit v) (24 - s.answers.length)) = (es, more)) :
    (es = [] → doQuery src p v s = joinAnswers (.reply none false true true) src p s) ∧
    (es ≠ [] → doQuery src p v s =
      s.withAnswers (s.answers ++ es.zipIdx.map fun x =>
        ⟨.reply (some ⟨x.1.slot, s.incarnation x.1.slot⟩) (decide (x.2 + 1 = es.length) && more)
          (decide (x.2 + 1 = es.length) && !more) false, src, x.1.tag, s.timeBase, 0, false⟩)) := by
  have hfree : ¬ 24 - s.answers.length = 0 := by omega
  simp only [doQuery, Config.answerCapacity, if_neg hfree, hb, hw]
  cases es with
  | nil => simp
  | cons e es =>
    simp only [foldl_joinAnswers, replyBodies_eq_zipIdx s more (e :: es) 0, List.map_map]
    simp [replyBody, Function.comp_def]

/-- Settles O33: the decision of a heard QUERY, on the state that has heard it. -/
theorem queryIsAnsweredFromTheWalk : Obligations.QueryIsAnsweredFromTheWalk := by
  intro s dst src p v hhears hlen
  rw [exec_query_of_hears hhears p v hlen]
  refine ⟨fun hfull => congrArg _ (doQuery_full (s := s.heard v.length) src p v hfull), fun hroom => ?_⟩
  have hbad := doQuery_bad (s := s.heard v.length) (p := p) (v := v) src hroom
  refine ⟨fun h7 => congrArg _ (hbad (badQuery_of_length h7 p)), ?_⟩
  rintro m0 m1 m2 a0 a1 a2 l rfl
  refine ⟨fun h => congrArg _ (hbad ((badQuery_iff ..).mpr h)), fun hl h4 hnone es more hwalk => ?_⟩
  have hgood : badQuery p [m0, m1, m2, a0, a1, a2, l] = false := by
    rw [Bool.eq_false_iff, Ne, badQuery_iff]
    rintro (h | h | h)
    · exact hl h
    · omega
    · exact hnone h
  obtain ⟨hnil, hcons⟩ := doQuery_walk (s := s.heard 7) src hroom hgood hwalk
  exact ⟨fun h => congrArg _ (hnil h), fun h => congrArg _ (hcons h)⟩

/-! ## LIST (R164) -/

theorem toNat_append_eq_add {v w : Nat} (x : BitVec v) (y : BitVec w) : (x ++ y).toNat = x.toNat * 2 ^ w + y.toNat := by
  rw [BitVec.toNat_append, ← Nat.shiftLeft_add_eq_or_of_lt y.isLt, Nat.shiftLeft_eq]

/-- The first result word: the number of tags in its low byte, MORE at bit 8 and END at bit 9. -/
theorem listWords_head_toNat {es : List DirEntry} (more : Bool) (h : es.length < 256) :
    (0#6 ++ BitVec.ofBool (!more) ++ BitVec.ofBool more ++ BitVec.ofNat 8 es.length : Word).toNat =
      es.length + if more then 256 else 512 := by
  have hnumber : (BitVec.ofNat 8 es.length).toNat = es.length := by
    rw [BitVec.toNat_ofNat]
    exact Nat.mod_eq_of_lt h
  have hflag : (0#6 ++ BitVec.ofBool (!more) ++ BitVec.ofBool more).toNat = if more then 1 else 2 := by
    cases more <;> decide
  rw [toNat_append_eq_add, hnumber, hflag]
  cases more
  · exact Nat.add_comm 512 _
  · exact Nat.add_comm 256 _

theorem walk_length_le {es : List DirEntry} {more : Bool} (h : s.walk p m a n = (es, more)) : es.length ≤ n := by
  obtain ⟨_, -, hlen, -⟩ := walk_split h
  omega

/-- Settles O50: the head block is decided by the limit, then by the walk. -/
theorem listReportsTheWalk : Obligations.ListReportsTheWalk := by
  intro s b htake
  have hexec : exec .list s = .next (completeCommand b 2 (decideList b s).1 (decideList b s).2.1 (decideList b s).2.2) :=
    congrArg _ (takeCommand_of_canTake htake decideList)
  rw [hexec]
  constructor
  · intro hlimit
    rw [decideList, if_pos (by omega)]
    rfl
  · intro h1 h6 es more hwalk
    have hdecide : decideList b s = (.ok, listWords es more, s) := by
      rw [decideList, if_neg (by omega), tagOfWords, tagOfWords, lowByte, lowByte, hwalk]
    rw [hdecide]
    exact ⟨_, rfl, listWords_head_toNat more (by have := walk_length_le hwalk; omega)⟩

end Sys2Proof.Machine
end

section
/-! PROOF. Accepting updates (chapter 4): the classes of a sequence, and the decisions on a PUBLISH. -/

namespace Sys2Proof.Machine

variable {s : State} {n : Addr} {t : Tag} {q fl : Byte} {v : List Byte} {i : SlotIx} {r : Record}

/-! ## The classes of a sequence (R52) -/

theorem toNat_sub_eq_mod (q ref : Byte) : (q - ref).toNat = (q.toNat + 256 - ref.toNat) % 256 := by
  have hadd : 2 ^ 8 - ref.toNat + q.toNat = q.toNat + 256 - ref.toNat := by
    have := ref.isLt
    omega
  rw [BitVec.toNat_sub, hadd]

/-- Settles O16: the model's difference is the number of the statement, and the classes cut 0 to 255 in three. -/
theorem sequenceClasses : Obligations.SequenceClasses := by
  intro ref q d
  have hd : d < 256 := Nat.mod_lt _ (by decide)
  have hclass : seqClass ref q = if d = 0 then .duplicate else if d ≤ 127 then .newer else .older := by
    rw [seqClass, toNat_sub_eq_mod]
  rw [hclass]
  clear_value d
  refine ⟨by omega, ?_⟩
  by_cases hduplicate : d = 0
  · rw [if_pos hduplicate]
    exact ⟨iff_of_true rfl hduplicate, iff_of_false nofun (by omega), iff_of_false nofun (by omega)⟩
  rw [if_neg hduplicate]
  by_cases hnewer : d ≤ 127
  · rw [if_pos hnewer]
    exact ⟨iff_of_false nofun hduplicate, iff_of_true rfl (by omega), iff_of_false nofun (by omega)⟩
  · rw [if_neg hnewer]
    exact ⟨iff_of_false nofun hduplicate, iff_of_false nofun (by omega), iff_of_true rfl (by omega)⟩

/-! ## The decision on a PUBLISH, check by check (R54 to R56) -/

theorem publishVerdict_zero : s.publishVerdict n 0 q v = .refuse .badTag := if_pos rfl

theorem publishVerdict_of_disabled (ht : t ≠ 0) (hz : (s.zone (zoneOf t)).status = .disabled) :
    s.publishVerdict n t q v = .refuse .noZone := by
  rw [State.publishVerdict, if_neg ht, if_pos hz]

theorem publishVerdict_of_absent (ht : t ≠ 0) (hz : (s.zone (zoneOf t)).status = .active) (hl : s.lookup t = none) :
    s.publishVerdict n t q v = s.creationVerdict t v := by
  rw [State.publishVerdict, if_neg ht, if_neg (by simp [hz]), hl]

theorem publishVerdict_of_finds (h : s.Finds t i r) :
    s.publishVerdict n t q v = s.updateVerdict n i r t q v := by
  simp only [State.publishVerdict, if_neg h.named, h.active, reduceCtorEq, if_false, h.found, h.held]

theorem creationVerdict_of_closed (h : (s.zone (zoneOf t)).admission = .closed) :
    s.creationVerdict t v = .refuse .noRecord := if_pos h

theorem creationVerdict_of_frozen (ha : (s.zone (zoneOf t)).admission = .opened)
    (hf : (s.zone (zoneOf t)).freeze ≠ none) : s.creationVerdict t v = .refuse .zoneFrozen := by
  rw [State.creationVerdict, if_neg (by simp [ha]), if_pos ((State.frozen_iff _).mpr hf)]

/-- The creation checks of a zone that is OPEN and not frozen. -/
theorem creationVerdict_of_opened (ha : (s.zone (zoneOf t)).admission = .opened)
    (hf : (s.zone (zoneOf t)).freeze = none) : s.creationVerdict t v =
      if (s.zone (zoneOf t)).quota ≤ (s.zone (zoneOf t)).count then .refuse .quota
      else if s.freeQueue = [] then .refuse .tableFull
      else if v.length = 0 then .refuse .badLength
      else .create := by
  rw [State.creationVerdict, if_neg (by simp [ha]), State.frozen_eq_false hf]
  rfl

theorem updateVerdict_of_foreign (h : r.producer ≠ .node n) :
    s.updateVerdict n i r t q v = .refuse .notOwner := if_pos h

theorem updateVerdict_of_length_ne (hp : r.producer = .node n) (h : v.length ≠ r.length) :
    s.updateVerdict n i r t q v = .refuse .badLength := by
  rw [State.updateVerdict, if_neg (not_not_intro hp), if_pos h]

theorem updateVerdict_of_duplicate (hp : r.producer = .node n) (hv : v.length = r.length) {ref : Byte}
    (href : s.reference i r = some ref) (hclass : seqClass ref q = .duplicate) :
    s.updateVerdict n i r t q v = .duplicate i := by
  simp only [State.updateVerdict, hp, hv, href, hclass, ne_eq, not_true_eq_false, if_false]

theorem updateVerdict_of_older (hp : r.producer = .node n) (hv : v.length = r.length) {ref : Byte}
    (href : s.reference i r = some ref) (hclass : seqClass ref q = .older) :
    s.updateVerdict n i r t q v = .old := by
  simp only [State.updateVerdict, hp, hv, href, hclass, ne_eq, not_true_eq_false, if_false]

/-- A PUBLISH whose sequence passes meets the freeze field (R55, R56). -/
theorem updateVerdict_of_passes (hp : r.producer = .node n) (hv : v.length = r.length) (h : s.passes i r q) :
    s.updateVerdict n i r t q v = s.freezeVerdict i t := by
  rcases h with hnone | ⟨ref, href, hnewer⟩
  · simp only [State.updateVerdict, hp, hv, hnone, ne_eq, not_true_eq_false, if_false]
  · simp only [State.updateVerdict, hp, hv, href, hnewer, ne_eq, not_true_eq_false, if_false]

theorem freezeVerdict_of_unfrozen (h : (s.zone (zoneOf t)).freeze = none) : s.freezeVerdict i t = .apply i := by
  rw [State.freezeVerdict, State.frozen_eq_false h]
  rfl

theorem freezeVerdict_of_frozen (h : (s.zone (zoneOf t)).freeze ≠ none) : s.freezeVerdict i t =
    if (s.deferredOf i).isSome then .supersede i
    else if 32 ≤ s.deferred.length then .refuse .deferFull else .park i :=
  if_pos ((State.frozen_iff _).mpr h)

/-! ## A decided PUBLISH: counted, confirmed, carried out (R57) -/

theorem doPublish_of_refuse {c : OutcomeCode} (hc : c.isRefusal = true) (h : s.publishVerdict n t q v = .refuse c) :
    doPublish n t q fl v s = State.answered n t q fl c (s.count .refused) := by
  simp only [doPublish, h, PublishVerdict.code, PublishVerdict.act, countRefusal, hc, if_true]
  rfl

theorem doPublish_of_passed {d : PublishVerdict} (hd : d.code.isRefusal = false) (h : s.publishVerdict n t q v = d) :
    doPublish n t q fl v s = d.act n t q v (State.answered n t q fl d.code s) := by
  simp only [doPublish, h, countRefusal, hd]
  rfl

/-- A heard PUBLISH is decided as on the state before its frame: hearing it moves the port and RX_GOOD alone. -/
theorem publishVerdict_heard (k : Nat) : (s.heard k).publishVerdict n t q v = s.publishVerdict n t q v := rfl

/-- Settles O27: each refusal by the check of its line. -/
theorem publishRefusalsInOrder : Obligations.PublishRefusalsInOrder := by
  intro s dst src t q fl v hhears hdst hlen refused x
  have hrefuse : ∀ c, c.isRefusal = true → s.publishVerdict src t q v = .refuse c → refused c := fun c hc h =>
    (exec_publish_of_hears hhears hdst t q fl v hlen).trans (congrArg _ (doPublish_of_refuse hc h))
  refine ⟨?badTag, ?noZone, ?absent, ?present⟩
  case badTag =>
    rintro rfl
    exact hrefuse _ rfl publishVerdict_zero
  case noZone => exact fun ht hz => hrefuse _ rfl (publishVerdict_of_disabled ht hz)
  case absent =>
    intro ht hz hl
    have hcreate := publishVerdict_of_absent (n := src) (q := q) (v := v) ht hz hl
    refine ⟨fun ha => ?_, fun ha hf => ?_, fun ha hf hq => ?_, fun ha hf hq hs => ?_, fun ha hf hq hs hv => ?_⟩
    · exact hrefuse _ rfl (hcreate.trans (creationVerdict_of_closed ha))
    · exact hrefuse _ rfl (hcreate.trans (creationVerdict_of_frozen ha hf))
    all_goals rw [creationVerdict_of_opened ha hf] at hcreate
    · exact hrefuse _ rfl (hcreate.trans (if_pos hq))
    all_goals rw [if_neg (Nat.not_le.mpr hq)] at hcreate
    · exact hrefuse _ rfl (hcreate.trans (if_pos hs))
    · exact hrefuse _ rfl (hcreate.trans (by rw [if_neg hs, hv]; rfl))
  case present =>
    intro i r hfinds
    have hupdate := publishVerdict_of_finds (n := src) (q := q) (v := v) hfinds
    refine ⟨fun hp => ?_, fun hp hv => ?_, fun hp hv hpass hf hnone hfull => ?_⟩
    · exact hrefuse _ rfl (hupdate.trans (updateVerdict_of_foreign hp))
    · exact hrefuse _ rfl (hupdate.trans (updateVerdict_of_length_ne hp hv))
    · refine hrefuse _ rfl (hupdate.trans ?_)
      rw [updateVerdict_of_passes hp hv hpass, freezeVerdict_of_frozen hf, hnone]
      exact if_pos hfull

/-! ## Renewal and the apply step of a node's record (R58, R72) -/

/-- The record `r` renewed now under the setting of its zone (R72). -/
def Record.renewedIn (s : State) (r : Record) : Record :=
  { r with leaseDeadline := leaseAfter s r, pendingAge := pendingAfter r }

theorem Record.renewed_of_node (hp : r.producer = .node n) :
    r.renewed (s.zone (zoneOf r.tag)).lease s.timeBase = r.renewedIn s := by
  simp only [Record.renewed, Record.renewedIn, hp]
  rfl

/-- A renewal alone changes the record and nothing else (R55, R56). -/
theorem renewAlone_of_node (h : s.record i = some r) (hp : r.producer = .node n) :
    renewAlone i s = s.setRecord i (r.renewedIn s) := by
  simp only [renewAlone, h, Record.renewed_of_node hp]

theorem touchUpdate_of_record (h : s.record i = some r) :
    touchUpdate i s = s.setRecord i { r with lastUpdate := s.timeBase } := by
  simp only [touchUpdate, h]

/-- What an apply step makes of its record: steps 1 to 5 of R58, and then what its image asks for. -/
theorem applyStep_becomes (h : s.record i = some r) (v : List Byte) (q : Option Byte) (renew : Bool) :
    Becomes i r (r.applied v q s.timeBase (if renew then some (s.zone (zoneOf r.tag)).lease else none)) s
      (applyStep i v q renew s) :=
  recordStep_spec s h fun r =>
    r.applied v q s.timeBase (if renew then some (s.zone (zoneOf r.tag)).lease else none)

/-- Steps 1 to 5 of the apply step of a PUBLISH, with its renewal (R58, R72). -/
theorem Record.applied_of_node (hp : r.producer = .node n) :
    r.applied v (some q) s.timeBase (some (s.zone (zoneOf r.tag)).lease) =
      { r with
        state := .live
        processValue := some v
        lastSequence := some q
        lastUpdate := s.timeBase
        leaseDeadline := leaseAfter s r
        graceDeadline := if r.state = .stale then none else r.graceDeadline
        pendingAge := pendingAfter r } := by
  simp only [Record.applied, Record.renewed, hp]
  rfl

/-! ## What a CONFIRM leaves alone (R57, R138) -/

section Answered

variable {c : OutcomeCode}

@[simp] theorem answered_slots : (State.answered n t q fl c s).slots = s.slots := by
  obtain ⟨a, k, hframe⟩ := answered_frame n t q fl c s
  rw [hframe]

@[simp] theorem answered_zones : (State.answered n t q fl c s).zones = s.zones := by
  obtain ⟨a, k, hframe⟩ := answered_frame n t q fl c s
  rw [hframe]

@[simp] theorem answered_timeBase : (State.answered n t q fl c s).timeBase = s.timeBase := by
  obtain ⟨a, k, hframe⟩ := answered_frame n t q fl c s
  rw [hframe]

@[simp] theorem answered_deferred : (State.answered n t q fl c s).deferred = s.deferred := by
  obtain ⟨a, k, hframe⟩ := answered_frame n t q fl c s
  rw [hframe]

@[simp] theorem answered_record : (State.answered n t q fl c s).record i = s.record i :=
  State.record_congr answered_slots i

@[simp] theorem answered_incarnation : (State.answered n t q fl c s).incarnation i = s.incarnation i :=
  State.incarnation_congr answered_slots i

/-- The renewal looks at the zone table and the time base alone. -/
theorem leaseAfter_congr {u : State} (hz : u.zones = s.zones) (ht : u.timeBase = s.timeBase) (r : Record) :
    leaseAfter u r = leaseAfter s r := by
  rw [leaseAfter, State.zone_congr hz, ht, leaseAfter]

@[simp] theorem leaseAfter_answered : leaseAfter (State.answered n t q fl c s) r = leaseAfter s r :=
  leaseAfter_congr answered_zones answered_timeBase r

end Answered

/-! ## A PUBLISH that is applied, renews, or is parked (R55 to R58, R90, R91) -/

/-- Settles O29: the CONFIRM moves answers and counters alone, so the apply step finds the record as it was. -/
theorem publishAppliesAnUpdate : Obligations.PublishAppliesAnUpdate := by
  intro s dst src t q fl v i r hhears hdst hlen hfinds _ hp hv hpass hf
  have hverdict : (s.heard v.length).publishVerdict src t q v = .apply i := by
    rw [publishVerdict_heard, publishVerdict_of_finds hfinds, updateVerdict_of_passes hp hv hpass,
      freezeVerdict_of_unfrozen hf]
  refine ⟨_, (exec_publish_of_hears hhears hdst t q fl v hlen).trans
    (congrArg _ (doPublish_of_passed rfl hverdict)), ?_⟩
  have hrecord : (State.answered src t q fl .ok (s.heard v.length)).record i = some r :=
    answered_record.trans hfinds.held
  have hbecomes := applyStep_becomes hrecord v (some q) true
  rw [if_pos rfl, Record.applied_of_node hp, answered_timeBase, leaseAfter_answered] at hbecomes
  exact hbecomes

/-- A DUPLICATE renews its record and its last update time (R55). -/
theorem act_duplicate (h : s.record i = some r) (hp : r.producer = .node n) :
    (PublishVerdict.duplicate i).act n t q v s =
      s.setRecord i { r.renewedIn s with lastUpdate := s.timeBase } := by
  rw [PublishVerdict.act, renewAlone_of_node h hp, touchUpdate_of_record (State.record_setRecord_self s i _),
    State.setRecord_setRecord]
  rfl

/-- A parked PUBLISH stands at the tail of the deferred queue and renews its record (R56, R90). -/
theorem act_park (h : s.record i = some r) (hp : r.producer = .node n) :
    (PublishVerdict.park i).act n t q v s =
      (s.withDeferred (s.deferred ++ [⟨i, s.incarnation i, q, v⟩])).setRecord i (r.renewedIn s) := by
  have hrecord : (parkEntry i q v s).record i = some r := h
  rw [PublishVerdict.act, renewAlone_of_node hrecord hp]
  rfl

/-- The entry of a superseded PUBLISH keeps its slot, its incarnation and its place (R91). -/
theorem supersedeEntry_eq : supersedeEntry i q v s = s.withDeferred (s.deferred.map fun e =>
    if e.slot = i ∧ e.incarnation = s.incarnation i then ⟨i, e.incarnation, q, v⟩ else e) := by
  rw [supersedeEntry]
  congr 2
  funext e
  split_ifs with he
  · rw [he.1]
  · rfl

/-- A superseding PUBLISH replaces the parked one, renews its record and is counted (R56, R91). -/
theorem act_supersede (h : s.record i = some r) (hp : r.producer = .node n) :
    (PublishVerdict.supersede i).act n t q v s =
      ((s.withDeferred (s.deferred.map fun e =>
        if e.slot = i ∧ e.incarnation = s.incarnation i then ⟨i, e.incarnation, q, v⟩ else e)).setRecord i
          (r.renewedIn s)).count .superseded := by
  have hrecord : (supersedeEntry i q v s).record i = some r := h
  rw [PublishVerdict.act, renewAlone_of_node hrecord hp, supersedeEntry_eq]
  rfl

/-- The reference of a record without a parked entry (R53). -/
theorem reference_of_unparked (h : s.deferredOf i = none) :
    s.reference i r = if r.state = .live then r.lastSequence else none := by
  rw [State.reference, h]

/-- Settles O30: sequence class and freeze field select the decision, which is carried out behind its CONFIRM. -/
theorem publishRenewsParksOrIsOld : Obligations.PublishRenewsParksOrIsOld := by
  refine ⟨fun s i r => ⟨fun e he => ?_, fun hnone hlive => ?_, fun hnone hstale => ?_⟩, ?_⟩
  · rw [State.reference, he]
  · rw [reference_of_unparked hnone, if_pos hlive]
  · rw [reference_of_unparked hnone, if_neg (by simp [hstale])]
  intro s dst src t q fl v i r hhears hdst hlen hfinds _ hp hv renewed
  have hexec : ∀ d : PublishVerdict, d.code.isRefusal = false → s.updateVerdict src i r t q v = d →
      exec (.publish dst src t q fl v) s =
        .next (d.act src t q v (State.answered src t q fl d.code (s.heard v.length))) := fun d hd h =>
    (exec_publish_of_hears hhears hdst t q fl v hlen).trans
      (congrArg _ (doPublish_of_passed hd ((publishVerdict_of_finds hfinds).trans h)))
  have hheld : ∀ c, (State.answered src t q fl c (s.heard v.length)).record i = some r := fun _ =>
    answered_record.trans hfinds.held
  have hrenewed : ∀ c, r.renewedIn (State.answered src t q fl c (s.heard v.length)) = renewed := fun _ => by
    rw [Record.renewedIn, leaseAfter_answered]
    rfl
  refine ⟨fun ref href hclass => ?duplicate, fun ref href hclass => ?old, fun hpass hf hnone hroom => ?park,
    fun hpass hf hparked => ?supersede⟩
  case duplicate =>
    rw [hexec _ rfl (updateVerdict_of_duplicate hp hv href hclass), act_duplicate (hheld _) hp, hrenewed,
      answered_timeBase]
    rfl
  case old => exact hexec _ rfl (updateVerdict_of_older hp hv href hclass)
  case park =>
    have hverdict : s.updateVerdict src i r t q v = .park i := by
      rw [updateVerdict_of_passes hp hv hpass, freezeVerdict_of_frozen hf, hnone]
      exact if_neg (Nat.not_le.mpr hroom)
    rw [hexec _ rfl hverdict, act_park (hheld _) hp, hrenewed, answered_deferred, answered_incarnation]
    rfl
  case supersede =>
    have hverdict : s.updateVerdict src i r t q v = .supersede i := by
      rw [updateVerdict_of_passes hp hv hpass, freezeVerdict_of_frozen hf]
      exact if_pos hparked
    rw [hexec _ rfl hverdict, act_supersede (hheld _) hp, hrenewed, answered_deferred, answered_incarnation]
    rfl

end Sys2Proof.Machine
end

section
/-! PROOF. The taking and completing of a host command (sections 10.3, 10.4 and 10.7). -/

namespace Sys2Proof.Machine

variable {s : State} {b : Block}

/-! ## Kinds and the entries of their records (R154, section 10.7) -/

/-- The kinds stand in the order of their numbers. -/
theorem ofNumber_eq_getD (n : Byte) : HostKind.ofNumber n = [none, some HostKind.create, some .retire, some .write,
    some .force, some .unforce, some .read, some .list, some .setZone, some .zoneStatus, some .freeze, some .thaw,
    some .setDevice, some .busStart, some .busStop, some .clearTable, some .counters,
    some .setMaintMode].getD n.toNat none := by
  unfold HostKind.ofNumber
  generalize n.toNat = k
  match k with
  | 0 | 1 | 2 | 3 | 4 | 5 | 6 | 7 | 8 | 9 | 10 | 11 | 12 | 13 | 14 | 15 | 16 | 17 => rfl
  | _ + 18 => rfl

/-- READ, LIST and COUNTERS have two entries; a block that names no kind needs one (R154). -/
theorem entries_ofNumber (n : Byte) :
    (HostKind.ofNumber n).elim 1 HostKind.entries = if n ∈ [(6 : Byte), 7, 16] then 2 else 1 := by
  have hmem : n ∈ [(6 : Byte), 7, 16] ↔ n.toNat = 6 ∨ n.toNat = 7 ∨ n.toNat = 16 := by
    simp [← BitVec.toNat_inj]
  simp only [hmem, HostKind.ofNumber]
  generalize n.toNat = k
  match k with
  | 0 | 1 | 2 | 3 | 4 | 5 | 6 | 7 | 8 | 9 | 10 | 11 | 12 | 13 | 14 | 15 | 16 | 17 => rfl
  | k + 18 =>
    rw [if_neg (by omega)]
    rfl

/-- What a block needs is told by the kind number in its word 0 (R154). -/
theorem needs_eq (b : Block) : b.needs =
    if b.words.head?.any (fun w => w.extractLsb' 8 8 ∈ [(6 : Byte), 7, 16]) then 2 else 1 := by
  have hneeds : b.needs = b.named.elim 1 HostKind.entries := by
    rw [Block.needs]
    cases b.named <;> rfl
  rw [hneeds, Block.named, entries_ofNumber, Block.word, highByte]
  cases b.words with
  | nil => rfl
  | cons w ws => simp

/-- When the head block can be taken (R154). -/
theorem takeable_eq_some_iff : s.takeable = some b ↔ s.host.executing = false ∧ s.host.commands.head? = some b ∧
    s.host.completions.length + s.host.reserved + b.needs ≤ 8 := by
  have hfits : ∀ c : Block, c.needs ≤ s.freeCompletions ↔
      s.host.completions.length + s.host.reserved + c.needs ≤ 8 := by
    intro c
    have hpos : 1 ≤ c.needs := by
      rw [needs_eq]
      split_ifs <;> decide
    simp only [State.freeCompletions, Config.completionCapacity]
    omega
  unfold State.takeable
  cases s.host.executing
  · cases s.host.commands with
    | nil => simp
    | cons c cs =>
      simp only [Bool.false_eq_true, if_false, List.head?_cons, Option.some.injEq, true_and, hfits]
      constructor
      · intro h
        split_ifs at h with hc
        cases h
        exact ⟨rfl, hc⟩
      · rintro ⟨rfl, hc⟩
        exact if_pos hc
  · simp

/-! ## The rows of the host commands without a block to take (R154; log 4) -/

theorem exec_badCommand_of_none (h : s.takeable = none) : exec .badCommand s = .next s := by
  simp only [exec, execBadCommand, h]

/-- BUS_STOP asks for a takeable block in both of its branches, the other kinds in the one they share. -/
theorem exec_row_of_none (h : s.takeable = none) (k : HostKind) : exec k.row s = .next s := by
  have hidle : ∀ j f, Host.Outcome.next (takeCommand j f s) = (.next s : Host.Outcome State Fault Refusal) :=
    fun j f => congrArg _ (takeCommand_of_none h j f)
  cases k
  case busStop =>
    simp only [HostKind.row, exec, execBusStop, h]
    split_ifs
    · rfl
    · exact hidle _ _
  all_goals exact hidle _ _

/-! ## What a block is (R155, section 10.7) -/

theorem command_eq_some_iff {k : HostKind} : b.command = some k ↔
    b.wrongCount = false ∧ b.named = some k ∧ b.words.length ∈ k.wordCounts := by
  unfold Block.command
  cases b.named with
  | none => simp
  | some j =>
    by_cases hj : j = k
    · subst hj
      simp
    · simp [hj]

/-- A block with a wrong count, of no kind, or of a length that its kind does not have, is no command. -/
theorem command_eq_none (h : b.wrongCount = true ∨ b.named = none ∨
    ∃ k, b.named = some k ∧ b.words.length ∉ k.wordCounts) : b.command = none := by
  refine Option.eq_none_iff_forall_ne_some.mpr fun k hk => ?_
  obtain ⟨hcount, hnamed, hlen⟩ := command_eq_some_iff.mp hk
  rcases h with h | h | ⟨j, hj, hbad⟩
  · exact absurd (hcount.symm.trans h) (by decide)
  · exact absurd (hnamed.symm.trans h) (Option.some_ne_none k)
  · exact hbad (Option.some.inj (hnamed.symm.trans hj) ▸ hlen)

theorem exec_badCommand_of_takeable (h : s.takeable = some b) (hb : b.command = none) :
    exec .badCommand s = .next (completeCommand b 1 .badCommand [] s) := by
  simp only [exec, execBadCommand, h, hb, if_true]

/-! ## Completion records (R155) -/

theorem entryOf_getElem (ws : List Word) (m : Nat) : ∀ k (hk : k < 8), (entryOf ws m)[k] = ws.getD (m + k) 0
  | 0, _ | 1, _ | 2, _ | 3, _ | 4, _ | 5, _ | 6, _ | 7, _ => rfl

theorem recordWords_getD (b : Block) (n : Nat) (c : OutcomeCode) (ws : List Word) : ∀ m,
    (recordWords b n c ws).getD m 0 =
      if m = 0 then b.word 0 else if m = 1 then BitVec.ofNat 8 n ++ c.number else ws.getD (m - 2) 0
  | 0 | 1 => rfl
  | m + 2 => by simp [recordWords]

/-- Entry `j` of a completion record holds the words from `8 * j` on. -/
theorem completionRecord_getElem? {b : Block} {n : Nat} {c : OutcomeCode} {ws : List Word} (hn : n = 1 ∨ n = 2)
    {j : Nat} {e : Vector Word 8} (he : (completionRecord b n c ws)[j]? = some e) :
    e = entryOf (recordWords b n c ws) (8 * j) := by
  rcases hn with rfl | rfl
  · match j with
    | 0 => exact (Option.some.inj he).symm
    | _ + 1 => exact nomatch he
  · match j with
    | 0 | 1 => exact (Option.some.inj he).symm
    | _ + 2 => exact nomatch he

theorem completionRecord_length {n : Nat} (hn : n = 1 ∨ n = 2) (b : Block) (c : OutcomeCode) (ws : List Word) :
    (completionRecord b n c ws).length = n := by
  rcases hn with rfl | rfl <;> rfl

/-- Settles O44: the taking, the kinds, the blocks, the codes and the record, each by its lemma above. -/
theorem takingAndCompletingACommand : Obligations.TakingAndCompletingACommand := by
  refine ⟨fun s b => ?takeable, fun s h => ⟨exec_badCommand_of_none h, exec_row_of_none h⟩,
    fun s b h hbad => exec_badCommand_of_takeable h (command_eq_none hbad), ofNumber_eq_getD, fun k => ?counts,
    fun b k => command_eq_some_iff, fun b => ?operands, ⟨rfl, rfl, rfl⟩, fun s b n c ws hn => ?record⟩
  case takeable => rw [takeable_eq_some_iff, needs_eq]
  case counts => cases k <;> rfl
  case operands =>
    refine ⟨fun k => rfl, rfl, rfl, rfl, rfl, fun k hk => ?_⟩
    match k, hk with
    | 0, _ | 1, _ | 2, _ | 3, _ => exact ⟨rfl, rfl⟩
  case record =>
    refine ⟨completionRecord b n c ws, completionRecord_length hn b c ws, rfl, fun j k hk e he => ?_⟩
    simp only [completionRecord_getElem? hn he, entryOf_getElem, recordWords_getD]

end Sys2Proof.Machine
end

section
/-! PROOF. The four frames of a POKE (section 11.5): what each frame end makes of the port, and what the patch makes
of its record. -/

namespace Sys2Proof.Machine

variable {s : State} {f out : MaintFrame} {p : PokeProgress} {slot : Word} {field inc : Byte} {i : SlotIx} {r : Record}

/-! ## A whole frame and its frame end (R172, R173) -/

/-- The state in which an aligned frame `f` comes to its frame end. -/
def State.sampled (f : MaintFrame) (s : State) : State :=
  s.withMaint
    { s.maint with
      position := 0
      shift := 0
      onesCount := (frameBits f).foldl onesAfter s.maint.onesCount
      lastEdge := s.timeBase
      mdo := s.maint.output.getMsbD 47
      mclk := true }

@[simp] theorem sampled_poke : (s.sampled f).maint.poke = s.maint.poke := rfl

@[simp] theorem pokeVerdict_sampled : (s.sampled f).pokeVerdict slot field inc = s.pokeVerdict slot field inc := rfl

@[simp] theorem readBackAnswer_sampled :
    (s.sampled f).readBackAnswer slot field inc = s.readBackAnswer slot field inc := rfl

theorem clockFrame_sampled (h : s.aligned f) : clockFrame f s = fallingEdge (endFrame f (s.sampled f)) :=
  clockFrame_aligned h

/-- A frame end that sets output and progress leaves the port as `tookFrame` says. -/
theorem fallingEdge_setOutput : fallingEdge (setOutput out p (s.sampled f)) = s.tookFrame f out p := rfl

theorem clockFrame_of_setOutput (h : s.aligned f) (he : endFrame f (s.sampled f) = setOutput out p (s.sampled f)) :
    clockFrame f s = s.tookFrame f out p := by
  rw [clockFrame_sampled h, he, fallingEdge_setOutput]

/-! ## The header (R179) -/

/-- The fields of a request frame stand where section 11.2 places them. -/
theorem request_fields (code : Byte) (slot : Word) (field inc spare : Byte) :
    requestCode (code ++ slot ++ field ++ inc ++ spare) = code ∧
    requestSlot (code ++ slot ++ field ++ inc ++ spare) = slot ∧
    requestField (code ++ slot ++ field ++ inc ++ spare) = field ∧
    requestIncarnation (code ++ slot ++ field ++ inc ++ spare) = inc := by
  refine ⟨?_, ?_, ?_, ?_⟩
  · rw [requestCode, BitVec.extractLsb'_append_eq_of_le (by decide), BitVec.extractLsb'_append_eq_of_le (by decide),
      BitVec.extractLsb'_append_eq_of_le (by decide)]
    exact BitVec.extractLsb'_append_eq_left
  · rw [requestSlot, BitVec.extractLsb'_append_eq_of_le (by decide), BitVec.extractLsb'_append_eq_of_le (by decide),
      BitVec.extractLsb'_append_eq_of_le (by decide)]
    exact BitVec.extractLsb'_append_eq_right
  · rw [requestField, BitVec.extractLsb'_append_eq_of_le (by decide), BitVec.extractLsb'_append_eq_of_le (by decide)]
    exact BitVec.extractLsb'_append_eq_right
  · rw [requestIncarnation, BitVec.extractLsb'_append_eq_of_le (by decide)]
    exact BitVec.extractLsb'_append_eq_right

/-- A frame that begins with a 0 bit, as the code of POKE does. -/
theorem poke_getMsbD_zero (slot : Word) (field inc spare : Byte) :
    (pokeCode ++ slot ++ field ++ inc ++ spare).getMsbD 0 = false := by
  rw [BitVec.getMsbD_append, BitVec.getMsbD_append, BitVec.getMsbD_append, BitVec.getMsbD_append]
  rfl

theorem endRequest_poke (slot : Word) (field inc spare : Byte) (s : State) :
    endRequest (pokeCode ++ slot ++ field ++ inc ++ spare) s =
      setOutput (response .ok pokeCode (inc ++ field ++ slot)) (.awaitData slot field inc) s := by
  obtain ⟨hcode, hslot, hfield, hinc⟩ := request_fields pokeCode slot field inc spare
  rw [endRequest, hcode, hslot, hfield, hinc]
  rfl

theorem exec_poke_of_idle (hpos : s.maint.position = 0) (hidle : s.maint.poke = .idle) (spare : Byte) :
    exec (.poke slot field inc spare) s = .next (s.tookFrame (5#8 ++ slot ++ field ++ inc ++ spare)
      (OutcomeCode.ok.number ++ 5#8 ++ (inc ++ field ++ slot)) (.awaitData slot field inc)) := by
  refine congrArg _ (clockFrame_of_setOutput (State.aligned_of_zero hpos (poke_getMsbD_zero slot field inc spare)) ?_)
  rw [endFrame, sampled_poke, hidle]
  exact endRequest_poke slot field inc spare _

/-! ## The decision on the data frame (R180) -/

theorem pokeVerdict_of_slot (h : 511 < slot.toNat) : s.pokeVerdict slot field inc = .error .badArgument := by
  rw [State.pokeVerdict, slotOfWord_of_large h]

/-- A field that is no half of the process value is refused, whatever the slot. -/
theorem pokeVerdict_of_field (h : field ≠ 2 ∧ field ≠ 3) : s.pokeVerdict slot field inc = .error .badArgument := by
  rw [State.pokeVerdict]
  cases slotOfWord slot with
  | none => rfl
  | some i => exact if_pos h

section Named

variable (hslot : slot.toNat = i.val) (hfield : field = 2 ∨ field = 3)
include hslot hfield

theorem pokeVerdict_of_observe (hmode : s.maint.mode = .observe) :
    s.pokeVerdict slot field inc = .error .notPermitted := by
  have hhalf : ¬ (field ≠ 2 ∧ field ≠ 3) := by tauto
  have hservice : s.maint.mode ≠ .service := by simp [hmode]
  simp only [State.pokeVerdict, slotOfWord_of_lt hslot, if_neg hhalf, if_pos hservice]

theorem pokeVerdict_of_free (hmode : s.maint.mode = .service) (h : s.record i = none) :
    s.pokeVerdict slot field inc = .error .noRecord := by
  have hhalf : ¬ (field ≠ 2 ∧ field ≠ 3) := by tauto
  simp only [State.pokeVerdict, slotOfWord_of_lt hslot, if_neg hhalf, if_neg (not_not_intro hmode), h]

/-- The checks of R180 on the record of a slot, in SERVICE. -/
theorem pokeVerdict_of_record (hmode : s.maint.mode = .service) (h : s.record i = some r) :
    s.pokeVerdict slot field inc =
      if s.incarnation i ≠ inc then .error .staleRef
      else if s.frozen (zoneOf r.tag) then .error .zoneFrozen
      else if field = 3 ∧ r.length ≤ 4 then .error .badArgument
      else .ok (i, r) := by
  have hhalf : ¬ (field ≠ 2 ∧ field ≠ 3) := by tauto
  simp only [State.pokeVerdict, slotOfWord_of_lt hslot, if_neg hhalf, if_neg (not_not_intro hmode), h]

end Named

theorem exec_pokeDataFrame_of_error {c : OutcomeCode} (hpoke : s.maint.poke = .awaitData slot field inc)
    (ha : s.aligned f) (h : s.pokeVerdict slot field inc = .error c) : exec (.pokeDataFrame f) s = .next
      (s.tookFrame f (c.number ++ 5#8 ++ 0#32) (.decided slot field inc (some c))) := by
  refine congrArg _ (clockFrame_of_setOutput ha ?_)
  rw [endFrame, sampled_poke, hpoke]
  simp only [endPokeData, pokeVerdict_sampled, h]
  rfl

/-! ## The patch (R58, R59, R180) -/

/-- A change of one record leaves the maintenance port. -/
theorem Becomes.maint_eq {r' : Record} {u : State} (h : Becomes i r r' s u) : u.maint = s.maint := by
  unfold Becomes at h
  split_ifs at h
  · rw [h]
    rfl
  · rw [h.rest]

/-- A change of one record does not look at the maintenance port. -/
theorem Becomes.withMaint {r' : Record} {u : State} (h : Becomes i r r' s u) (m : Maint) :
    Becomes i r r' (s.withMaint m) (u.withMaint m) := by
  unfold Becomes at h ⊢
  split_ifs at h ⊢
  · rw [h]
    rfl
  · exact ⟨h.record, h.zone, h.touched, ⟨h.requested.joined, h.requested.room, h.requested.counted⟩,
      congrArg (State.withMaint · m) h.rest⟩

/-- So it goes unchanged through a fall of MCLK. -/
theorem Becomes.fallingEdge {r' : Record} {u : State} (h : Becomes i r r' s u) :
    Becomes i r r' (fallingEdge s) (fallingEdge u) := by
  rw [Machine.fallingEdge, Machine.fallingEdge, h.maint_eq]
  exact h.withMaint _

theorem patched_length (r : Record) (base : Nat) (d : BitVec 32) : (r.patched base d).length = r.length := by
  simp [Record.patched]

/-- The patched value, byte by byte; the data bits of a frame are its low 32. -/
theorem patched_getElem? (r : Record) (base : Nat) (f : MaintFrame) {k : Nat} (hk : k < r.length) :
    (r.patched base (frameData f))[k]? = some (if base ≤ k ∧ k < base + 4 then
      f.extractLsb' (24 - 8 * (k - base)) 8 else byteAt r.processValue k) := by
  have hbyte : dataByte (frameData f) (k - base) = f.extractLsb' (24 - 8 * (k - base)) 8 :=
    BitVec.extractLsb'_extractLsb'_of_le (by omega)
  rw [Record.patched, List.getElem?_map, List.getElem?_range hk, Option.map_some, hbyte]

/-- The patch is an apply step with no sequence and no renewal (R58, R59). -/
theorem exec_pokeDataFrame_of_ok (hpoke : s.maint.poke = .awaitData slot field inc) (ha : s.aligned f)
    (h : s.pokeVerdict slot field inc = .ok (i, r)) (hrecord : s.record i = some r) :
    ∃ u, exec (.pokeDataFrame f) s = .next u ∧
      Becomes i r
        { r with
          state := .live
          processValue := some (r.patched (fieldBase field) (frameData f))
          lastUpdate := s.timeBase
          graceDeadline := if r.state = .stale then none else r.graceDeadline }
        (s.tookFrame f (response .ok pokeCode (fourBytes r.processValue (fieldBase field)))
          (.decided slot field inc none)) u := by
  refine ⟨_, congrArg Host.Outcome.next (clockFrame_sampled ha), ?_⟩
  rw [endFrame, sampled_poke, hpoke]
  simp only [endPokeData, pokeVerdict_sampled, h]
  rw [← fallingEdge_setOutput]
  refine Becomes.fallingEdge ?_
  exact recordStep_spec _ (by exact hrecord) fun r' : Record =>
    r'.applied (r.patched (fieldBase field) (frameData f)) none s.timeBase none

/-! ## The read-back and the end (R181) -/

theorem exec_pokeReadBack_of_refused {c : OutcomeCode} (hpoke : s.maint.poke = .decided slot field inc (some c))
    (ha : s.aligned f) :
    exec (.pokeReadBack f) s = .next (s.tookFrame f (c.number ++ 5#8 ++ 0#32) .readBack) := by
  refine congrArg _ (clockFrame_of_setOutput ha ?_)
  rw [endFrame, sampled_poke, hpoke]
  rfl

theorem exec_pokeReadBack_of_applied {c : OutcomeCode} {d : BitVec 32}
    (hpoke : s.maint.poke = .decided slot field inc none) (ha : s.aligned f)
    (h : s.readBackAnswer slot field inc = (c, d)) :
    exec (.pokeReadBack f) s = .next (s.tookFrame f (c.number ++ 5#8 ++ d) .readBack) := by
  refine congrArg _ (clockFrame_of_setOutput ha ?_)
  rw [endFrame, sampled_poke, hpoke]
  simp only [endPokeReadBack, readBackAnswer_sampled, h]
  rfl

theorem readBackAnswer_of_free (hslot : slot.toNat = i.val) (h : s.record i = none) :
    s.readBackAnswer slot field inc = (.noRecord, 0) := by
  simp only [State.readBackAnswer, slotOfWord_of_lt hslot, h]

theorem readBackAnswer_of_record (hslot : slot.toNat = i.val) (h : s.record i = some r) :
    s.readBackAnswer slot field inc =
      if s.incarnation i = inc then (.ok, fourBytes r.processValue (fieldBase field)) else (.staleRef, 0) := by
  simp only [State.readBackAnswer, slotOfWord_of_lt hslot, h]

theorem exec_pokeEnd_of_readBack (hpoke : s.maint.poke = .readBack) (ha : s.aligned f) :
    exec (.pokeEnd f) s = .next (s.tookFrame f (BitVec.allOnes 48) .idle) := by
  refine congrArg _ (clockFrame_of_setOutput ha ?_)
  rw [endFrame, sampled_poke, hpoke]
  rfl

/-- Settles O60: one frame end for each place that a POKE stands at. -/
theorem pokeTakesFourFrames : Obligations.PokeTakesFourFrames := by
  refine fun s => ⟨fun slot field inc spare hpos hidle => exec_poke_of_idle hpos hidle spare, ?data, ?readBack,
    fun f => exec_pokeEnd_of_readBack, by simp [State.mrdyHigh]⟩
  case data =>
    intro f slot field inc hpoke ha base refused
    have hrefuse : ∀ c, s.pokeVerdict slot field inc = .error c → refused c := fun c =>
      exec_pokeDataFrame_of_error hpoke ha
    refine ⟨fun h => hrefuse _ (h.elim pokeVerdict_of_slot pokeVerdict_of_field), fun i hslot hfield => ?_⟩
    refine ⟨fun hmode => hrefuse _ (pokeVerdict_of_observe hslot hfield hmode),
      fun hmode hfree => hrefuse _ (pokeVerdict_of_free hslot hfield hmode hfree), fun hmode r hrecord => ?_⟩
    have hverdict := pokeVerdict_of_record (inc := inc) hslot hfield hmode hrecord
    refine ⟨fun hinc => hrefuse _ (hverdict.trans (if_pos hinc)), fun hinc hf => hrefuse _ ?_,
      fun hinc hf h3 hshort => hrefuse _ ?_, fun hinc hf hhalf => ?_⟩
    all_goals rw [if_neg (not_not_intro hinc)] at hverdict
    · exact hverdict.trans (if_pos ((State.frozen_iff _).mpr hf))
    all_goals rw [if_neg (Bool.eq_false_iff.mp (State.frozen_eq_false hf))] at hverdict
    · exact hverdict.trans (if_pos (And.intro h3 hshort))
    · obtain ⟨u, hexec, hbecomes⟩ := exec_pokeDataFrame_of_ok hpoke ha (hverdict.trans (if_neg hhalf)) hrecord
      exact ⟨u, _, hexec, patched_length r base (frameData f), fun k hk => patched_getElem? r base f hk, hbecomes⟩
  case readBack =>
    intro f slot field inc refusal hpoke ha readBack base
    refine ⟨?_, ?_⟩
    · rintro c rfl
      exact exec_pokeReadBack_of_refused hpoke ha
    · rintro rfl i hslot
      refine ⟨fun hfree => ?_, fun r hrecord => ?_⟩
      · exact exec_pokeReadBack_of_applied hpoke ha (readBackAnswer_of_free hslot hfree)
      · have hanswer := readBackAnswer_of_record (field := field) (inc := inc) hslot hrecord
        exact ⟨fun hinc => exec_pokeReadBack_of_applied hpoke ha (hanswer.trans (if_neg hinc)),
          fun hinc => exec_pokeReadBack_of_applied hpoke ha (hanswer.trans (if_pos hinc))⟩

end Sys2Proof.Machine
end

section
/-! PROOF. What a change of records, zones, requests and answers leaves alone: everything outside the record store, the
answer queue and the counters. -/

namespace Sys2Proof.Machine

variable {s u : State}

/-! ## What stands outside the record store -/

/-- What a change of records, zones, subscriptions, parked entries, answers and counters leaves alone. -/
structure Outer where
  timeBase : Nat
  port : Port
  transmitter : Option Frame
  host : HostUnit
  settings : Settings
  maint : Maint
  straps : Straps
  choices : Nat
  pending : List Instr

/-- States that agree here differ in the record store and its neighbours, the answer queue and the counters at most. -/
def State.outer (s : State) : Outer :=
  ⟨s.timeBase, s.port, s.transmitter, s.host, s.settings, s.maint, s.straps, s.choices, s.pending⟩

@[simp] theorem outer_withAnswers (x : List Answer) : (s.withAnswers x).outer = s.outer := rfl
@[simp] theorem outer_count (k : CounterId) : (s.count k).outer = s.outer := rfl
@[simp] theorem outer_joinAnswers (b : AnswerBody) (n : Addr) (t : Tag) : (joinAnswers b n t s).outer = s.outer := rfl

theorem outer_foldl {α : Type} {f : State → α → State} (h : ∀ s a, (f s a).outer = s.outer) (l : List α) :
    ∀ s, (l.foldl f s).outer = s.outer := by
  induction l with
  | nil => exact fun _ => rfl
  | cons a l ih => exact fun s => (ih _).trans (h s a)

/-! ### Records (chapters 1, 4 and 5) -/

theorem VisiblyChanged.outer_eq {i : SlotIx} {r : Record} (h : VisiblyChanged i r s u) : u.outer = s.outer := by
  rw [h.rest]
  rfl

theorem Becomes.outer_eq {i : SlotIx} {r r' : Record} (h : Becomes i r r' s u) : u.outer = s.outer := by
  unfold Becomes at h
  split_ifs at h
  · rw [h]
    rfl
  · exact h.outer_eq

theorem Retired.outer_eq {i : SlotIx} {r : Record} (h : Retired i r s u) : u.outer = s.outer := by
  rw [h.rest]
  rfl

theorem Created.outer_eq {i : SlotIx} {r : Record} (h : Created i r s u) : u.outer = s.outer := by
  rw [h.rest]
  rfl

@[simp] theorem outer_recordStep (i : SlotIx) (f : Record → Record) : (recordStep i f s).outer = s.outer := by
  cases h : s.record i with
  | none => simp only [recordStep, h]
  | some r => exact (recordStep_spec s h f).outer_eq

@[simp] theorem outer_applyStep (i : SlotIx) (v : List Byte) (q : Option Byte) (renew : Bool) :
    (applyStep i v q renew s).outer = s.outer := outer_recordStep ..

@[simp] theorem outer_makeStale (i : SlotIx) : (makeStale i s).outer = s.outer := outer_recordStep ..

@[simp] theorem outer_forceStep (i : SlotIx) (v : Option (List Byte)) : (forceStep i v s).outer = s.outer :=
  outer_recordStep ..

@[simp] theorem outer_retireSlot (i : SlotIx) : (retireSlot i s).outer = s.outer := by
  cases h : s.record i with
  | none => simp only [retireSlot, h]
  | some r => exact (retireSlot_spec s h).outer_eq

@[simp] theorem outer_createRecord (n : NewRecord) : (createRecord n s).outer = s.outer := by
  cases h : s.freeQueue with
  | nil => simp only [createRecord, h]
  | cons i rest => exact (createRecord_spec s n h).outer_eq

@[simp] theorem outer_renewAlone (i : SlotIx) : (renewAlone i s).outer = s.outer := by
  unfold renewAlone
  split <;> rfl

@[simp] theorem outer_touchUpdate (i : SlotIx) : (touchUpdate i s).outer = s.outer := by
  unfold touchUpdate
  split <;> rfl

@[simp] theorem outer_setPendingAge (i : SlotIx) (p : AgeStep) : (setPendingAge i p s).outer = s.outer := by
  unfold setPendingAge
  split <;> rfl

@[simp] theorem outer_dropLease (i : SlotIx) : (dropLease i s).outer = s.outer := by
  unfold dropLease
  split <;> rfl

@[simp] theorem outer_dropGrace (i : SlotIx) : (dropGrace i s).outer = s.outer := by
  unfold dropGrace
  split <;> rfl

@[simp] theorem outer_leaseExpired (i : SlotIx) (r : Record) : (leaseExpired i r s).outer = s.outer := by
  unfold leaseExpired
  split
  · exact outer_dropLease i
  · split <;> simp

@[simp] theorem outer_graceExpired (i : SlotIx) (r : Record) : (graceExpired i r s).outer = s.outer := by
  simp only [graceExpired]
  split <;> simp

/-! ### The thaw (section 6.4) -/

@[simp] theorem outer_applyDeferred (e : Deferred) : (applyDeferred s e).outer = s.outer := by
  unfold applyDeferred
  split <;> simp

@[simp] theorem outer_settlePending (i : SlotIx) : (settlePending s i).outer = s.outer := by
  unfold settlePending
  split
  · rfl
  · split <;> simp

@[simp] theorem outer_thawZone (z : ZoneIx) : (thawZone z s).outer = s.outer := by
  have hparked : ∀ u : State, (applyParked z u).outer = u.outer := fun u =>
    (outer_foldl (fun _ e => outer_applyDeferred e) _ _).trans rfl
  exact (outer_foldl (fun _ i => outer_settlePending i) _ _).trans (hparked _)

/-! ### Requests and answers (chapters 4, 7, 8 and 9) -/

@[simp] theorem outer_setMarker (ref : Ref) (n : Addr) (m : Bool) : (setMarker ref n m s).outer = s.outer := by
  obtain ⟨x, h⟩ := setMarker_frame ref n m s
  rw [h]
  rfl

@[simp] theorem outer_markUnsent (a : Answer) : (markUnsent s a).outer = s.outer := by
  obtain ⟨x, h⟩ := markUnsent_frame a s
  rw [h]
  rfl

@[simp] theorem outer_notifyRequest (t : Tag) (ref : Ref) (n : Addr) : (notifyRequest t ref n s).outer = s.outer := by
  unfold notifyRequest
  split <;> simp

@[simp] theorem outer_confirm (n : Addr) (t : Tag) (q : Byte) (c : OutcomeCode) :
    (confirm n t q c s).outer = s.outer := by
  obtain ⟨a, k, h⟩ := confirm_frame n t q c s
  rw [h]
  rfl

@[simp] theorem outer_countRefusal (c : OutcomeCode) : (countRefusal c s).outer = s.outer := by
  unfold countRefusal
  split <;> rfl

@[simp] theorem outer_addSubscription (i : SlotIx) (n : Addr) : (addSubscription i n s).outer = s.outer := by
  unfold addSubscription
  split <;> rfl

@[simp] theorem outer_returnSubscription (i : SlotIx) (n : Addr) : (returnSubscription i n s).outer = s.outer := by
  unfold returnSubscription
  split
  · split <;> rfl
  · rfl

@[simp] theorem outer_supersedeEntry (i : SlotIx) (q : Byte) (v : List Byte) :
    (supersedeEntry i q v s).outer = s.outer := rfl

@[simp] theorem outer_parkEntry (i : SlotIx) (q : Byte) (v : List Byte) : (parkEntry i q v s).outer = s.outer := rfl

@[simp] theorem outer_act (d : PublishVerdict) (n : Addr) (t : Tag) (q : Byte) (v : List Byte) :
    (d.act n t q v s).outer = s.outer := by
  cases d <;> simp [PublishVerdict.act]

theorem outer_doPublish (n : Addr) (t : Tag) (q fl : Byte) (v : List Byte) :
    (doPublish n t q fl v s).outer = s.outer := by
  simp only [doPublish, outer_act]
  split <;> simp

theorem outer_doWithdraw (n : Addr) (t : Tag) (q : Byte) : (doWithdraw n t q s).outer = s.outer := by
  unfold doWithdraw
  split <;> simp

theorem outer_doSubscribe (n : Addr) (t : Tag) (q : Byte) : (doSubscribe n t q s).outer = s.outer := by
  unfold doSubscribe
  split <;> simp

theorem outer_doUnsubscribe (n : Addr) (t : Tag) (q : Byte) : (doUnsubscribe n t q s).outer = s.outer := by
  unfold doUnsubscribe
  split <;> simp

theorem outer_doQuery (n : Addr) (p : Tag) (v : List Byte) : (doQuery n p v s).outer = s.outer := by
  simp only [doQuery]
  split
  · rfl
  split
  · rfl
  split
  · rfl
  · rw [foldl_joinAnswers, outer_withAnswers]

theorem outer_dispatchFrame (f : Frame) : (dispatchFrame f s).outer = s.outer := by
  unfold dispatchFrame
  split
  · exact outer_doPublish ..
  · exact outer_doQuery ..
  · exact outer_doWithdraw ..
  · exact outer_doSubscribe ..
  · exact outer_doUnsubscribe ..
  · rfl

/-- A received frame moves records, zones, requests, answers and counters alone (R123 to R126). -/
@[simp] theorem outer_receive (x : Option Frame) : (receive x s).outer = s.outer := by
  unfold receive
  split
  · rfl
  split
  · rfl
  · rfl
  · exact outer_dispatchFrame _

@[simp] theorem outer_withoutStarted : (withoutStarted s).outer = s.outer := rfl

@[simp] theorem outer_unstart (n : Nat) : (unstart n s).outer = s.outer := rfl

@[simp] theorem outer_passOnMissed (ref : Ref) (n : Addr) (m : Bool) : (passOnMissed ref n m s).outer = s.outer := by
  unfold passOnMissed
  split <;> simp

@[simp] theorem outer_returnEntry (a : Answer) (n : Nat) : (returnEntry a n s).outer = s.outer := by
  unfold returnEntry
  split
  · split <;> simp
  · rfl

@[simp] theorem outer_expireEntry (k : Nat) (a : Answer) : (expireEntry k a s).outer = s.outer :=
  outer_markUnsent (s := s.withAnswers _) a

@[simp] theorem outer_clearTaken (a : Answer) : (clearTaken a s).outer = s.outer := by
  unfold clearTaken
  split <;> simp

@[simp] theorem outer_clearTable : (clearTable s).outer = s.outer := rfl

/-- States that agree outside the record store go on agreeing when the transmitter is set in both. -/
theorem outer_withTransmitter_congr (h : u.outer = s.outer) (x : Option Frame) :
    (u.withTransmitter x).outer = (s.withTransmitter x).outer :=
  congrArg (fun o : Outer => { o with transmitter := x }) h

/-- An attempt start may set the transmitter, and nothing else outside the record store (R140 to R142). -/
theorem outer_startAttempt (n : Nat) : ∀ s : State, (startAttempt n s).outer = s.outer ∨
    ∃ f, (startAttempt n s).outer = (s.withTransmitter (some f)).outer := by
  induction n with
  | zero => exact fun s => .inl rfl
  | succ n ih =>
    intro s
    unfold startAttempt
    split
    · exact .inl rfl
    · rename_i a _
      split
      · have hexpired : ∀ k, (expireEntry k a s).outer = s.outer := fun k => outer_expireEntry k a
        exact (ih _).imp (·.trans (hexpired _)) fun ⟨f, h⟩ =>
          ⟨f, h.trans (outer_withTransmitter_congr (hexpired _) _)⟩
      · refine .inr ⟨s.bindAnswer (s.takeMissed a), ?_⟩
        exact outer_withTransmitter_congr (outer_clearTaken a) _

end Sys2Proof.Machine
end

section
/-! PROOF. The ranges of the device settings, the port, the time base and the maintenance counts over every step (R70,
R121, R131, R132, R166, R172, R184). -/

namespace Sys2Proof.Machine

variable {s u v : State}

/-! ## Steps that keep the ranges -/

theorem DeviceSound.congr (h : DeviceSound s) (hset : u.settings = s.settings) (hport : u.port = s.port)
    (htx : u.transmitter = s.transmitter) (htime : u.timeBase = s.timeBase) : DeviceSound u := by
  obtain ⟨lifetime, limit, address, joining, offline, underWay, attempt, clock⟩ := h
  constructor <;> simpa only [hset, hport, htx, htime]

theorem MaintSound.congr (h : MaintSound s) (hmaint : u.maint = s.maint) : MaintSound u := by
  obtain ⟨position, ones, between⟩ := h
  constructor <;> simpa only [hmaint]

/-- From `s` to `u` the ranges of device settings, port and time base, and those of the maintenance port, are kept. -/
def KeepsRanges (s u : State) : Prop := (DeviceSound s → DeviceSound u) ∧ (MaintSound s → MaintSound u)

theorem KeepsRanges.refl (s : State) : KeepsRanges s s := ⟨id, id⟩

theorem KeepsRanges.trans (h : KeepsRanges s u) (g : KeepsRanges u v) : KeepsRanges s v :=
  ⟨fun hs => g.1 (h.1 hs), fun hs => g.2 (h.2 hs)⟩

theorem keepsRanges_of_outer (h : u.outer = s.outer) : KeepsRanges s u :=
  ⟨fun hs => hs.congr (congrArg Outer.settings h) (congrArg Outer.port h) (congrArg Outer.transmitter h)
    (congrArg Outer.timeBase h), fun hs => hs.congr (congrArg Outer.maint h)⟩

theorem keepsRanges_withHost (s : State) (x : HostUnit) : KeepsRanges s (s.withHost x) :=
  ⟨fun h => h.congr rfl rfl rfl rfl, fun h => h.congr rfl⟩

theorem keepsRanges_withPending (s : State) (x : List Instr) : KeepsRanges s (s.withPending x) :=
  ⟨fun h => h.congr rfl rfl rfl rfl, fun h => h.congr rfl⟩

theorem keepsRanges_withChoices (s : State) (x : Nat) : KeepsRanges s (s.withChoices x) :=
  ⟨fun h => h.congr rfl rfl rfl rfl, fun h => h.congr rfl⟩

theorem keepsRanges_withMaint {m : Maint}
    (h : MaintSound s → m.position ≤ 47 ∧ m.onesCount ≤ 63 ∧ (m.position = 0 → m.shift = 0)) :
    KeepsRanges s (s.withMaint m) := by
  refine ⟨fun hs => hs.congr rfl rfl rfl rfl, fun hs => ?_⟩
  obtain ⟨position, ones, between⟩ := h hs
  exact ⟨position, ones, between⟩

theorem keepsRanges_withSettings {x : Settings} (hlife : 1 ≤ x.answerLifetime ∧ x.answerLifetime ≤ 255)
    (hlimit : 1 ≤ x.freezeLimit ∧ x.freezeLimit ≤ 255) : KeepsRanges s (s.withSettings x) :=
  ⟨fun h => ⟨hlife, hlimit, h.address, h.joining, h.offline, h.underWay, h.attempt, h.clock⟩, fun h => h.congr rfl⟩

/-- The clauses of `DeviceSound` that speak of the port alone. -/
structure PortSound (p : Port) : Prop where
  address : p.state ≠ .offline → validAddress p.ownAddress = true
  joining : p.state = .joining → p.quietTime < p.bitRate.joinBits
  offline : p.state = .offline → p.quietTime = 0 ∧ p.underWay = none
  underWay : ∀ l, p.underWay = some l → l ≠ [] ∧ p.quietTime = 0

theorem DeviceSound.portSound (h : DeviceSound s) : PortSound s.port := ⟨h.address, h.joining, h.offline, h.underWay⟩

/-- A port may change to any sound port while the transmitter is free. -/
theorem keepsRanges_withPort {p : Port} (h : DeviceSound s → s.transmitter = none ∧ PortSound p) :
    KeepsRanges s (s.withPort p) := by
  refine ⟨fun hs => ?_, fun hs => hs.congr rfl⟩
  obtain ⟨hfree, address, joining, offline, underWay⟩ := h hs
  have hattempt : s.transmitter.isSome = true → p.state = .online ∧ p.underWay = none ∧ 11 ≤ p.quietTime := by
    simp [hfree]
  exact ⟨hs.lifetime, hs.limit, address, joining, offline, underWay, hattempt, hs.clock⟩

/-- The transmitter may always become free. -/
theorem keepsRanges_free (s : State) : KeepsRanges s (s.withTransmitter none) :=
  ⟨fun h => ⟨h.lifetime, h.limit, h.address, h.joining, h.offline, h.underWay, nofun, h.clock⟩, fun h => h.congr rfl⟩

/-- The count of the bit times of a millisecond has no range. -/
theorem keepsRanges_lineTime (s : State) (n : Nat) : KeepsRanges s (s.withPort { s.port with lineTime := n }) :=
  ⟨fun h => ⟨h.lifetime, h.limit, h.address, h.joining, h.offline, h.underWay, h.attempt, h.clock⟩,
    fun h => h.congr rfl⟩

/-- A command answers a next state, with the ranges kept. -/
def AnswersInRange (s : State) (o : Host.Outcome State Fault Refusal) : Prop := ∃ u, o = .next u ∧ KeepsRanges s u

theorem answersInRange_next (h : KeepsRanges s u) : AnswersInRange s (.next u) := ⟨u, rfl, h⟩

/-! ## Readings of the line (R117, R132) -/

theorem State.listens_iff :
    s.listens = true ↔ s.port.state ≠ .offline ∧ s.port.stopPending = false ∧ s.transmitter = none := by
  simp [State.listens, State.reads, and_assoc]

theorem State.listens_congr (h : u.outer = s.outer) : u.listens = s.listens := by
  rw [State.listens, State.reads, show u.port = s.port from congrArg Outer.port h,
    show u.transmitter = s.transmitter from congrArg Outer.transmitter h, State.listens, State.reads]

theorem BitRate.one_lt_joinBits (x : BitRate) : 1 < x.joinBits := by
  cases x <;> decide

/-- From `s`, which listens, to `u`, which does too, the ranges are kept. -/
def ListensOn (s u : State) : Prop := s.listens = true → u.listens = true ∧ KeepsRanges s u

theorem ListensOn.refl (s : State) : ListensOn s s := fun h => ⟨h, .refl s⟩

theorem ListensOn.trans (h : ListensOn s u) (g : ListensOn u v) : ListensOn s v := fun hs =>
  ⟨(g (h hs).1).1, (h hs).2.trans (g (h hs).1).2⟩

/-- A sound port that is not OFFLINE, under the own address and without a stop pending, goes on listening. -/
theorem listensOn_withPort {p : Port} (hstate : s.port.state ≠ .offline → p.state ≠ .offline)
    (haddress : p.ownAddress = s.port.ownAddress) (hstop : p.stopPending = s.port.stopPending)
    (hjoining : PortSound s.port → p.state = .joining → p.quietTime < p.bitRate.joinBits)
    (hunderWay : ∀ l, p.underWay = some l → l ≠ [] ∧ p.quietTime = 0) : ListensOn s (s.withPort p) := by
  intro hlistens
  obtain ⟨hon, hgoing, hfree⟩ := State.listens_iff.mp hlistens
  refine ⟨State.listens_iff.mpr ⟨hstate hon, hstop.trans hgoing, hfree⟩, keepsRanges_withPort fun hs => ⟨hfree, ?_⟩⟩
  exact ⟨fun _ => haddress ▸ hs.address hon, hjoining hs.portSound, fun h => absurd h (hstate hon), hunderWay⟩

/-- JOINING ends before the quiet time reaches 2 ms. -/
theorem listensOn_waitQuiet (hnone : s.port.underWay = none) (n : Nat) : ListensOn s (waitQuiet n s) := by
  refine listensOn_withPort (fun hon => ?_) rfl rfl (fun _ => ?_) (by simp [hnone])
  · dsimp only
    split_ifs <;> simp [hon]
  · dsimp only
    split_ifs with h
    · nofun
    · exact fun hj => Nat.lt_of_not_le fun hle => h ⟨hj, hle⟩

/-- The quiet bit time that ends a frame is the first of its quiet time. -/
theorem listensOn_closeFrame (n : Nat) (x : Option Frame) : ListensOn s (closeFrame n x s) := by
  have hport : ListensOn s
      (s.withPort { s.port with quietTime := 1, underWay := none, lineTime := s.port.lineTime + n + 1 }) :=
    listensOn_withPort id rfl rfl (fun _ _ => BitRate.one_lt_joinBits _) nofun
  exact hport.trans fun h => ⟨(State.listens_congr (outer_receive x)).trans h, keepsRanges_of_outer (outer_receive x)⟩

theorem closeFrame_underWay (n : Nat) (x : Option Frame) : (closeFrame n x s).port.underWay = none := by
  rw [closeFrame, (sameLine_receive x _).1]
  rfl

theorem listensOn_passQuiet (n : Nat) : ListensOn s (passQuiet n s) := by
  cases n with
  | zero => exact .refl s
  | succ n =>
    cases h : s.port.underWay with
    | none =>
      rw [passQuiet_of_none h]
      exact listensOn_waitQuiet h _
    | some l =>
      rw [passQuiet_of_some h]
      exact (listensOn_closeFrame 0 _).trans (listensOn_waitQuiet (closeFrame_underWay _ _) n)

theorem withBit_ne_nil {b : Bool} {q : Nat} {w : Option (List Bool)} {l : List Bool} (h : withBit b q w = some l) :
    l ≠ [] := by
  cases w with
  | none =>
    rw [withBit_none] at h
    split_ifs at h
    exact Option.some.inj h ▸ List.cons_ne_nil b []
  | some w => exact Option.some.inj h ▸ List.append_ne_nil_of_right_ne_nil w (List.cons_ne_nil b [])

theorem listensOn_takeBit (b : Bool) : ListensOn s (takeBit b s) :=
  listensOn_withPort id rfl rfl (fun _ _ => Nat.lt_of_succ_lt (BitRate.one_lt_joinBits _)) fun _ h =>
    ⟨withBit_ne_nil h, rfl⟩

theorem listensOn_readLine (s : State) (r : Reading) : ListensOn s (readLine s r) := by
  cases r with
  | zero => exact listensOn_takeBit false
  | one => exact listensOn_takeBit true
  | quiet => exact listensOn_passQuiet 1

theorem listensOn_readings (rs : List Reading) : ∀ s : State, ListensOn s (rs.foldl readLine s) := by
  induction rs with
  | nil => exact .refl
  | cons r rs ih => exact fun s => (listensOn_readLine s r).trans (ih _)

theorem keepsRanges_takeLate (l : List (Option Frame)) (s : State) : KeepsRanges s (takeLate l s) :=
  keepsRanges_of_outer (outer_foldl (fun _ x => outer_receive x) l s)

theorem keepsRanges_passFrame (f : Frame) (s : State) : KeepsRanges s (passFrame f s) := by
  unfold passFrame
  split_ifs with hlistens
  · exact ((listensOn_passQuiet _).trans (listensOn_closeFrame _ _) hlistens).2
  · exact keepsRanges_takeLate _ s
  · exact .refl s

theorem execFrameDropped_inRange (rs : List Reading) (s : State) : AnswersInRange s (execFrameDropped rs s) := by
  refine answersInRange_next ?_
  split_ifs with hlistens
  · exact (listensOn_readings rs s hlistens).2
  · exact keepsRanges_takeLate _ s
  · exact .refl s

/-- So many quiet bit times, if the port listens. -/
theorem keepsRanges_quiet (n : Nat) (s : State) : KeepsRanges s (if s.listens then passQuiet n s else s) := by
  split_ifs with hlistens
  · exact (listensOn_passQuiet n hlistens).2
  · exact .refl s

/-! ## Attempts (R140 to R146) and the end of a stop (R133, R134) -/

theorem State.mayAttempt_iff : s.mayAttempt = true ↔ s.transmitter = none ∧ s.port.state = .online ∧
    s.port.stopPending = false ∧ s.port.underWay = none ∧ 11 ≤ s.port.quietTime := by
  simp [State.mayAttempt, State.lineIdle, and_assoc]

/-- An attempt starts on an idle line (R140). -/
theorem keepsRanges_tryAttempt (s : State) : KeepsRanges s (tryAttempt s) := by
  unfold tryAttempt
  split_ifs with hmay
  · obtain ⟨-, honline, -, hidle, hquiet⟩ := State.mayAttempt_iff.mp hmay
    rcases outer_startAttempt s.answers.length s with h | ⟨f, h⟩
    · exact keepsRanges_of_outer h
    · have hset : KeepsRanges s (s.withTransmitter (some f)) :=
        ⟨fun hs => ⟨hs.lifetime, hs.limit, hs.address, hs.joining, hs.offline, hs.underWay,
          fun _ => ⟨honline, hidle, hquiet⟩, hs.clock⟩, fun hs => hs.congr rfl⟩
      exact hset.trans (keepsRanges_of_outer h)
  · exact .refl s

/-- The port goes OFFLINE only while no attempt is under way. -/
theorem keepsRanges_goOffline (h : ¬ (s.port.state = .online ∧ s.transmitter.isSome = true)) :
    KeepsRanges s (goOffline s) := by
  obtain ⟨⟨x, hx⟩, -⟩ := goOffline_spec s
  have hport : KeepsRanges s (s.withPort s.stoppedPort) := keepsRanges_withPort fun hs => by
    refine ⟨?_, nofun, nofun, fun _ => ⟨rfl, rfl⟩, nofun⟩
    rw [← Option.not_isSome_iff_eq_none]
    exact fun htx => h ⟨(hs.attempt htx).1, htx⟩
  exact hport.trans (keepsRanges_of_outer (by rw [hx]; rfl))

theorem keepsRanges_completeStop (s : State) : KeepsRanges s (completeStop s) := by
  unfold completeStop
  split
  · exact keepsRanges_withHost s _
  · exact keepsRanges_withHost s _

/-- An attempt ends with the transmitter free, and with the port OFFLINE under a pending stop. -/
theorem keepsRanges_endAttempt (s : State) : KeepsRanges (s.withTransmitter none) (endAttempt s) := by
  unfold endAttempt
  dsimp only
  split_ifs
  · exact (keepsRanges_goOffline (by simp)).trans (keepsRanges_completeStop _)
  · exact .refl _

theorem keepsRanges_endAttempt_of_outer (h : u.outer = s.outer) : KeepsRanges (s.withTransmitter none) (endAttempt u) :=
  (keepsRanges_of_outer (outer_withTransmitter_congr h none)).trans (keepsRanges_endAttempt u)

theorem keepsRanges_loseAttempt (s : State) : KeepsRanges (s.withTransmitter none) (loseAttempt s) := by
  unfold loseAttempt
  split
  · exact keepsRanges_endAttempt s
  · exact keepsRanges_endAttempt_of_outer (outer_returnEntry _ _)

theorem keepsRanges_faultAttempt (s : State) : KeepsRanges (s.withTransmitter none) (faultAttempt s) := by
  unfold faultAttempt
  split
  · exact keepsRanges_endAttempt s
  · split_ifs
    · exact keepsRanges_endAttempt_of_outer (outer_returnEntry _ _)
    · rename_i a _ _
      have hdiscard : ((markUnsent (withoutStarted s) a).count .txFaults).outer = s.outer := outer_markUnsent a
      exact (keepsRanges_of_outer (outer_withTransmitter_congr hdiscard none)).trans
        ((keepsRanges_withHost _ _).trans (keepsRanges_endAttempt (raiseTxFault _)))

/-- An attempt under way leaves the port, which is ONLINE, with the transmitter free. -/
theorem keepsRanges_leavePort {p : Port} (h : s.transmitter.isSome = true) (hstate : p.state = s.port.state)
    (haddress : p.ownAddress = s.port.ownAddress) (hunderWay : ∀ l, p.underWay = some l → l ≠ [] ∧ p.quietTime = 0) :
    KeepsRanges s ((s.withPort p).withTransmitter none) := by
  refine ⟨fun hs => ?_, fun hs => hs.congr rfl⟩
  obtain ⟨honline, -, -⟩ := hs.attempt h
  have hfree : DeviceSound (s.withTransmitter none) := (keepsRanges_free s).1 hs
  have haddr : validAddress p.ownAddress = true := haddress ▸ hs.address (by simp [honline])
  refine (keepsRanges_withPort fun _ => ⟨rfl, ?_⟩).1 hfree
  exact ⟨fun _ => haddr, by simp [hstate, honline], by simp [hstate, honline], hunderWay⟩

/-- What was read of an attempt that breaks off is a frame under way, unless it is nothing. -/
theorem keepsRanges_leaveLine (l : List Bool) (h : s.transmitter.isSome = true) :
    KeepsRanges s ((leaveLine l s).withTransmitter none) := by
  refine keepsRanges_leavePort h rfl rfl fun m hm => ?_
  dsimp only at hm ⊢
  split_ifs at hm ⊢ with hl
  exact ⟨Option.some.inj hm ▸ hl, rfl⟩

theorem keepsRanges_endEcho (f : Frame) (h : s.transmitter.isSome = true) :
    KeepsRanges s ((endEcho f s).withTransmitter none) :=
  keepsRanges_leavePort h rfl rfl nofun

theorem keepsRanges_seeReading (r : Reading) (s : State) : KeepsRanges s (seeReading r s) := by
  unfold seeReading
  split_ifs with hlistens
  · exact (listensOn_readLine s r hlistens).2
  · exact .refl s

theorem execAttemptSent_inRange (s : State) : AnswersInRange s (execAttemptSent s) := by
  refine answersInRange_next ?_
  split
  · exact .refl s
  · rename_i f h
    exact (keepsRanges_endEcho f (by simp [h])).trans (keepsRanges_endAttempt_of_outer outer_withoutStarted)

theorem execAttemptLost_inRange (k : Nat) (s : State) : AnswersInRange s (execAttemptLost k s) := by
  refine answersInRange_next ?_
  split
  · exact .refl s
  · rename_i f h
    split_ifs
    · exact (keepsRanges_leaveLine _ (by simp [h])).trans
        ((keepsRanges_loseAttempt _).trans (keepsRanges_seeReading _ _))
    · exact .refl s

theorem execAttemptFault_inRange (k : Nat) (r : Reading) (s : State) : AnswersInRange s (execAttemptFault k r s) := by
  refine answersInRange_next ?_
  split
  · exact .refl s
  · rename_i f h
    split_ifs
    · exact (keepsRanges_leaveLine _ (by simp [h])).trans
        ((keepsRanges_faultAttempt _).trans (keepsRanges_seeReading _ _))
    · exact .refl s

/-! ## Host accesses and host commands (chapter 10) -/

theorem keepsRanges_completeCommand (b : Block) (n : Nat) (c : OutcomeCode) (ws : List Word) (s : State) :
    KeepsRanges s (completeCommand b n c ws s) := keepsRanges_withHost s _

/-- A host command keeps the ranges when its decision does. -/
theorem takeCommand_inRange {k : HostKind} {f : Block → State → OutcomeCode × List Word × State}
    (h : ∀ b, KeepsRanges s (f b s).2.2) : AnswersInRange s (.next (takeCommand k f s)) := by
  refine answersInRange_next ?_
  unfold takeCommand
  split
  · exact .refl s
  · split_ifs
    · exact (h _).trans (keepsRanges_completeCommand _ _ _ _ _)
    · exact .refl s

/-- A host command whose decision moves the record store alone. -/
theorem takeCommand_inRange_of_outer {k : HostKind} {f : Block → State → OutcomeCode × List Word × State}
    (h : ∀ b, (f b s).2.2.outer = s.outer) : AnswersInRange s (.next (takeCommand k f s)) :=
  takeCommand_inRange fun b => keepsRanges_of_outer (h b)

theorem execBadCommand_inRange (s : State) : AnswersInRange s (execBadCommand s) := by
  refine answersInRange_next ?_
  split
  · exact .refl s
  · split_ifs
    · exact keepsRanges_completeCommand _ _ _ _ s
    · exact .refl s

theorem outer_decideCreate (b : Block) (s : State) : (decideCreate b s).2.2.outer = s.outer := by
  unfold decideCreate
  split
  · exact outer_createRecord _
  · rfl

theorem outer_decideRetire (b : Block) (s : State) : (decideRetire b s).2.2.outer = s.outer := by
  unfold decideRetire
  split
  · rfl
  · split_ifs
    · rfl
    · exact outer_retireSlot _

theorem outer_decideWrite (b : Block) (s : State) : (decideWrite b s).2.2.outer = s.outer := by
  unfold decideWrite
  split
  · rfl
  · split_ifs
    · rfl
    · rfl
    · rfl
    · exact outer_applyStep ..

theorem outer_decideForce (b : Block) (s : State) : (decideForce b s).2.2.outer = s.outer := by
  unfold decideForce
  split
  · rfl
  · split_ifs
    · rfl
    · rfl
    · exact outer_forceStep ..

theorem outer_decideUnforce (b : Block) (s : State) : (decideUnforce b s).2.2.outer = s.outer := by
  unfold decideUnforce
  split
  · rfl
  · split_ifs
    · rfl
    · rfl
    · exact outer_forceStep ..

theorem outer_decideRead (b : Block) (s : State) : (decideRead b s).2.2.outer = s.outer := by
  unfold decideRead
  split <;> rfl

theorem outer_decideList (b : Block) (s : State) : (decideList b s).2.2.outer = s.outer := by
  simp only [decideList]
  split_ifs <;> rfl

theorem outer_decideSetZone (b : Block) (s : State) : (decideSetZone b s).2.2.outer = s.outer := by
  simp only [decideSetZone]
  split
  · split_ifs
    · rfl
    · split <;> rfl
  · rfl

theorem outer_decideZoneStatus (b : Block) (s : State) : (decideZoneStatus b s).2.2.outer = s.outer := by
  unfold decideZoneStatus
  split <;> rfl

theorem outer_decideFreeze (b : Block) (s : State) : (decideFreeze b s).2.2.outer = s.outer := by
  unfold decideFreeze
  split
  · rfl
  · split_ifs <;> rfl

theorem outer_decideThaw (b : Block) (s : State) : (decideThaw b s).2.2.outer = s.outer := by
  unfold decideThaw
  split
  · rfl
  · split_ifs
    · exact outer_thawZone _
    · rfl

theorem outer_decideCounters (b : Block) (s : State) : (decideCounters b s).2.2.outer = s.outer := by
  unfold decideCounters
  split <;> rfl

/-- The settings that SET_DEVICE can name are in range (R166, R167). -/
theorem Block.settings_range {b : Block} {x : Settings} (h : b.settings = some x) :
    (1 ≤ x.answerLifetime ∧ x.answerLifetime ≤ 255) ∧ 1 ≤ x.freezeLimit ∧ x.freezeLimit ≤ 255 := by
  unfold Block.settings at h
  split at h
  · cases h
  · split_ifs at h with hrange
    obtain ⟨-, -, hlife, hlife', hlimit, hlimit'⟩ := hrange
    cases h
    exact ⟨⟨hlife, hlife'⟩, hlimit, hlimit'⟩

theorem keepsRanges_decideSetDevice (b : Block) (s : State) : KeepsRanges s (decideSetDevice b s).2.2 := by
  unfold decideSetDevice
  split
  · exact .refl s
  · rename_i x hx
    split_ifs
    · exact keepsRanges_withSettings (Block.settings_range hx).1 (Block.settings_range hx).2
    · exact .refl s

/-- A start finds the port OFFLINE, so no attempt is under way, and the own address valid (R131). -/
theorem keepsRanges_decideBusStart (b : Block) (s : State) : KeepsRanges s (decideBusStart b s).2.2 := by
  unfold decideBusStart
  split_ifs with hoffline hvalid
  · exact .refl s
  · refine keepsRanges_withPort fun hs => ⟨?_, fun _ => hvalid, ?_, nofun, nofun⟩
    · rw [← Option.not_isSome_iff_eq_none]
      intro htx
      exact hoffline (by simp [(hs.attempt htx).1])
    · exact fun _ => Nat.lt_of_succ_lt (BitRate.one_lt_joinBits _)
  · exact .refl s

/-- A stop that finds an attempt under way leaves it the line, and drops a frame partly received (R134). -/
theorem keepsRanges_beginStop (s : State) : KeepsRanges s (beginStop s) :=
  ⟨fun h => ⟨h.lifetime, h.limit, h.address, h.joining, fun ho => ⟨(h.offline ho).1, rfl⟩, nofun,
    fun htx => ⟨(h.attempt htx).1, rfl, (h.attempt htx).2.2⟩, h.clock⟩, fun h => h.congr rfl⟩

theorem execBusStop_inRange (s : State) : AnswersInRange s (execBusStop s) := by
  unfold execBusStop
  split_ifs with hattempt
  · refine answersInRange_next ?_
    split
    · exact .refl s
    · split_ifs
      · exact keepsRanges_beginStop s
      · exact .refl s
  · refine takeCommand_inRange fun b => ?_
    unfold decideBusStop
    split_ifs
    · exact .refl s
    · exact keepsRanges_goOffline hattempt

theorem keepsRanges_decideSetMaintMode (b : Block) (s : State) : KeepsRanges s (decideSetMaintMode b s).2.2 := by
  unfold decideSetMaintMode
  split
  · exact .refl s
  · exact keepsRanges_withMaint fun hs => ⟨hs.position, hs.ones, hs.between⟩

theorem execCmdData_inRange (w : Word) (s : State) : AnswersInRange s (execCmdData w s) := by
  refine answersInRange_next ?_
  split_ifs
  · exact keepsRanges_withHost s _
  · exact .refl s

theorem execCmdSubmit_inRange (w : Word) (s : State) : AnswersInRange s (execCmdSubmit w s) := by
  refine answersInRange_next ?_
  split_ifs
  · exact keepsRanges_withHost s _
  · exact (keepsRanges_withHost s _).trans (keepsRanges_withHost _ _)

theorem execCplPop_inRange (w : Word) (s : State) : AnswersInRange s (execCplPop w s) := by
  refine answersInRange_next ?_
  split
  · exact .refl s
  · exact keepsRanges_withHost s _

theorem execMaintMailbox_inRange (s : State) : AnswersInRange s (execMaintMailbox s) :=
  answersInRange_next ((keepsRanges_withHost s _).trans
    (keepsRanges_withMaint fun hs => ⟨hs.position, hs.ones, hs.between⟩))

/-! ## Expiries (chapters 5 and 6) -/

theorem execLeaseExpiry_inRange (i : SlotIx) (s : State) : AnswersInRange s (execLeaseExpiry i s) := by
  refine answersInRange_next ?_
  split
  · exact .refl s
  · split_ifs
    · exact keepsRanges_of_outer (outer_leaseExpired i _)
    · exact .refl s

theorem execGraceExpiry_inRange (i : SlotIx) (s : State) : AnswersInRange s (execGraceExpiry i s) := by
  refine answersInRange_next ?_
  split
  · exact .refl s
  · split_ifs
    · exact keepsRanges_of_outer (outer_graceExpired i _)
    · exact .refl s

theorem execFreezeLimitExpiry_inRange (z : ZoneIx) (s : State) : AnswersInRange s (execFreezeLimitExpiry z s) := by
  refine answersInRange_next ?_
  split_ifs
  · exact (keepsRanges_of_outer (outer_thawZone z)).trans (keepsRanges_withHost _ _)
  · exact .refl s

/-! ## The maintenance port (chapter 11) -/

theorem keepsRanges_setOutput (out : MaintFrame) (p : PokeProgress) (s : State) : KeepsRanges s (setOutput out p s) :=
  keepsRanges_withMaint fun hs => ⟨hs.position, hs.ones, hs.between⟩

theorem keepsRanges_answerRequest (code : Byte) (a : OutcomeCode × BitVec 32) (s : State) :
    KeepsRanges s (answerRequest code a s) := keepsRanges_setOutput _ _ s

theorem keepsRanges_doAttention (w : Word) (s : State) : KeepsRanges s (doAttention w s) := by
  unfold doAttention
  split
  · have hmailbox : KeepsRanges s (s.withMaint { s.maint with mailbox := some w }) :=
      keepsRanges_withMaint fun hs => ⟨hs.position, hs.ones, hs.between⟩
    exact hmailbox.trans ((keepsRanges_withHost _ _).trans (keepsRanges_answerRequest _ _ (raiseAttention _)))
  · exact keepsRanges_answerRequest _ _ s

theorem keepsRanges_endRequest (f : MaintFrame) (s : State) : KeepsRanges s (endRequest f s) := by
  unfold endRequest
  split
  case h_5 => exact keepsRanges_doAttention _ s
  case h_6 => exact keepsRanges_setOutput _ _ s
  case h_7 => exact keepsRanges_setOutput _ _ s
  all_goals exact keepsRanges_answerRequest _ _ s

/-- A frame end leaves the counts of the port to the edge that brings it (R173). -/
theorem keepsRanges_endFrame (f : MaintFrame) (s : State) : KeepsRanges s (endFrame f s) := by
  unfold endFrame
  split
  · exact keepsRanges_endRequest f s
  · unfold endPokeData
    split
    · exact keepsRanges_setOutput _ _ s
    · exact (keepsRanges_setOutput _ _ s).trans (keepsRanges_of_outer (outer_applyStep ..))
  · unfold endPokeReadBack
    split
    · exact keepsRanges_setOutput _ _ s
    · exact keepsRanges_setOutput _ _ s
  · exact keepsRanges_setOutput _ _ s

theorem keepsRanges_realign (s : State) : KeepsRanges s (realign s) :=
  keepsRanges_withMaint fun _ => ⟨Nat.zero_le _, Nat.zero_le _, fun _ => rfl⟩

theorem keepsRanges_fallingEdge (s : State) : KeepsRanges s (fallingEdge s) :=
  keepsRanges_withMaint fun hs => ⟨hs.position, hs.ones, hs.between⟩

theorem keepsRanges_seeEdge (s : State) : KeepsRanges s (seeEdge s) := by
  have hheld : ∀ u : State, KeepsRanges u (u.withMaint { u.maint with lastEdge := s.timeBase, mclk := true }) :=
    fun u => keepsRanges_withMaint fun hu => ⟨hu.position, hu.ones, hu.between⟩
  have htimeout : KeepsRanges s (if s.timedOut then realign s else s) := by
    split_ifs
    · exact keepsRanges_realign s
    · exact .refl s
  have hfall : ∀ u : State, KeepsRanges u (if u.maint.mclk then fallingEdge u else u) := fun u => by
    split_ifs
    · exact keepsRanges_fallingEdge u
    · exact .refl u
  exact (htimeout.trans (hfall _)).trans (hheld _)

/-- A bit goes on to position 47 at most, and to 63 ones at most (R172, R184). -/
theorem keepsRanges_sampleBit (b : Bool) (s : State) : KeepsRanges s (sampleBit b s) := by
  by_cases hrecovers : Config.alignmentOnes ≤ onesAfter s.maint.onesCount b
  · rw [sampleBit_recovers hrecovers]
    exact keepsRanges_realign s
  have hones : onesAfter s.maint.onesCount b ≤ 63 := Nat.le_of_lt_succ (Nat.lt_of_not_le hrecovers)
  by_cases hwithin : s.maint.position < 47
  · rw [sampleBit_within hwithin hrecovers]
    exact keepsRanges_withMaint fun _ => ⟨hwithin, hones, nofun⟩
  · rw [sampleBit_last hwithin hrecovers]
    have hstart : KeepsRanges s
        (s.withMaint { s.maint with position := 0, shift := 0, onesCount := onesAfter s.maint.onesCount b }) :=
      keepsRanges_withMaint fun _ => ⟨Nat.zero_le _, hones, fun _ => rfl⟩
    exact hstart.trans (keepsRanges_endFrame _ _)

theorem keepsRanges_clockEdge (e : MclkEdge) (s : State) : KeepsRanges s (clockEdge e s) := by
  have hedge : KeepsRanges s (sampleBit e.mdi (seeEdge s)) :=
    (keepsRanges_seeEdge s).trans (keepsRanges_sampleBit _ _)
  unfold clockEdge
  dsimp only
  split_ifs
  · exact hedge.trans (keepsRanges_fallingEdge _)
  · exact hedge

theorem keepsRanges_clockEdges (l : List Bool) : ∀ s : State,
    KeepsRanges s (l.foldl (fun u b => clockEdge ⟨b, true⟩ u) s) := by
  induction l with
  | nil => exact .refl
  | cons b l ih => exact fun s => (keepsRanges_clockEdge ⟨b, true⟩ s).trans (ih _)

theorem clockFrame_inRange (f : MaintFrame) (s : State) : AnswersInRange s (.next (clockFrame f s)) :=
  answersInRange_next (keepsRanges_clockEdges (frameBits f) s)

theorem execFrameTimeout_inRange (s : State) : AnswersInRange s (execFrameTimeout s) := by
  refine answersInRange_next ?_
  split_ifs
  · exact keepsRanges_realign s
  · exact .refl s

/-! ## Every command, and the part's own turn -/

/-- Power-on values are in range (R130, R166, R172). -/
theorem execReset_inRange (a : Addr) (rate : BitVec 2) (s : State) : AnswersInRange s (execReset a rate s) := by
  have hfifty : 1 ≤ 50 ∧ 50 ≤ 255 := by decide
  exact answersInRange_next
    ⟨fun _ => ⟨hfifty, hfifty, fun h => absurd rfl h, nofun, fun _ => ⟨rfl, rfl⟩, nofun, nofun, Nat.two_pow_pos 48⟩,
      fun _ => ⟨Nat.zero_le _, Nat.zero_le _, fun _ => rfl⟩⟩

theorem exec_inRange (c : Instr) (s : State) : AnswersInRange s (exec c s) := by
  cases c with
  | reset a rate => exact execReset_inRange a rate s
  | leaseExpiry i => exact execLeaseExpiry_inRange i s
  | graceExpiry i => exact execGraceExpiry_inRange i s
  | freezeLimitExpiry z => exact execFreezeLimitExpiry_inRange z s
  | frameDropped rs => exact execFrameDropped_inRange rs s
  | publish | withdraw | subscribe | unsubscribe | query => exact answersInRange_next (keepsRanges_passFrame _ s)
  | busOnline n => exact answersInRange_next (keepsRanges_quiet n s)
  | attemptStart n => exact answersInRange_next ((keepsRanges_quiet n s).trans (keepsRanges_tryAttempt _))
  | attemptSent => exact execAttemptSent_inRange s
  | attemptLost k => exact execAttemptLost_inRange k s
  | attemptFault k r => exact execAttemptFault_inRange k r s
  | cmdData w => exact execCmdData_inRange w s
  | cmdSubmit w => exact execCmdSubmit_inRange w s
  | cplData | intStatus | intEnable => exact answersInRange_next (keepsRanges_withHost s _)
  | cplPop w => exact execCplPop_inRange w s
  | maintMailbox => exact execMaintMailbox_inRange s
  | ignoredWrite => exact answersInRange_next (.refl s)
  | badCommand => exact execBadCommand_inRange s
  | create => exact takeCommand_inRange_of_outer (outer_decideCreate · s)
  | retire => exact takeCommand_inRange_of_outer (outer_decideRetire · s)
  | write => exact takeCommand_inRange_of_outer (outer_decideWrite · s)
  | force => exact takeCommand_inRange_of_outer (outer_decideForce · s)
  | unforce => exact takeCommand_inRange_of_outer (outer_decideUnforce · s)
  | read => exact takeCommand_inRange_of_outer (outer_decideRead · s)
  | list => exact takeCommand_inRange_of_outer (outer_decideList · s)
  | setZone => exact takeCommand_inRange_of_outer (outer_decideSetZone · s)
  | zoneStatus => exact takeCommand_inRange_of_outer (outer_decideZoneStatus · s)
  | freeze => exact takeCommand_inRange_of_outer (outer_decideFreeze · s)
  | thaw => exact takeCommand_inRange_of_outer (outer_decideThaw · s)
  | setDevice => exact takeCommand_inRange (keepsRanges_decideSetDevice · s)
  | busStart => exact takeCommand_inRange (keepsRanges_decideBusStart · s)
  | busStop => exact execBusStop_inRange s
  | clearTable => exact takeCommand_inRange_of_outer fun _ => outer_clearTable
  | counters => exact takeCommand_inRange_of_outer (outer_decideCounters · s)
  | setMaintMode => exact takeCommand_inRange (keepsRanges_decideSetMaintMode · s)
  | noRequest | unknownRequestCode | nop | peek | peekZone | watch | attention | poke | pokeDataFrame | pokeReadBack
  | pokeEnd => exact clockFrame_inRange _ s
  | frameTimeout => exact execFrameTimeout_inRange s
  | alignmentRecovery | mclkRisingEdge => exact answersInRange_next (keepsRanges_clockEdge _ s)

theorem nextTime_lt (t : Nat) : nextTime t < 2 ^ 48 := by
  unfold nextTime
  split_ifs with h
  · exact h
  · exact BitVec.isLt _

theorem keepsRanges_passMilli (s : State) : KeepsRanges s (passMilli s) := by
  have hclock : KeepsRanges s (s.withTimeBase (nextTime s.timeBase)) :=
    ⟨fun h => ⟨h.lifetime, h.limit, h.address, h.joining, h.offline, h.underWay, h.attempt, nextTime_lt _⟩,
      fun h => h.congr rfl⟩
  exact hclock.trans (keepsRanges_lineTime _ _)

theorem keepsRanges_ownTurn (s : State) : KeepsRanges s s.ownTurn := by
  unfold State.ownTurn
  split
  · split_ifs
    · exact keepsRanges_passMilli s
    · exact keepsRanges_withPending s _
  · exact (keepsRanges_withPending s _).trans (keepsRanges_withChoices _ _)

/-- Settles O12: the command at the front keeps the ranges, and so does the part's own turn. -/
theorem stepKeepsTheRangesSound : Obligations.StepKeepsTheRangesSound := by
  intro s t hstep
  unfold step at hstep
  split at hstep
  · rename_i c rest _
    obtain ⟨u, hu, hkeeps⟩ := exec_inRange c (s.withPending rest)
    obtain rfl : u = t := Host.Outcome.next.inj (hu.symm.trans hstep)
    exact (keepsRanges_withPending s rest).trans hkeeps
  · obtain rfl : s.ownTurn = t := Host.Outcome.next.inj hstep
    exact keepsRanges_ownTurn s

end Sys2Proof.Machine
end

section
/-! PROOF. Lease and grace expiry (chapter 5). -/

namespace Sys2Proof.Machine

variable {s : State} {i : SlotIx} {r : Record} {d : Nat}

theorem reached_iff {deadline : Option Nat} {now : Nat} :
    reached deadline now = true ↔ ∃ d, deadline = some d ∧ d ≤ now := by
  cases deadline <;> simp [reached]

theorem reached_some : reached (some d) s.timeBase = decide (d ≤ s.timeBase) := rfl

theorem dropLease_of_record (h : s.record i = some r) :
    dropLease i s = s.setRecord i { r with leaseDeadline := none } := by
  simp only [dropLease, h]

theorem dropGrace_of_record (h : s.record i = some r) :
    dropGrace i s = s.setRecord i { r with graceDeadline := none } := by
  simp only [dropGrace, h]

/-- A pending step behind another change of the same record. -/
theorem setPendingAge_setRecord (p : AgeStep) :
    setPendingAge i p (s.setRecord i r) = s.setRecord i { r with pendingAge := p } := by
  simp only [setPendingAge, State.record_setRecord_self, State.setRecord_setRecord]

/-- A record that the state now holds becomes STALE (R75). -/
theorem makeStale_becomes (h : s.record i = some r) :
    Becomes i r
      { r with
        state := .stale
        graceDeadline :=
          if (s.zone (zoneOf r.tag)).grace = 0 then none
          else some (s.timeBase + 10 * (s.zone (zoneOf r.tag)).grace) } s (makeStale i s) :=
  recordStep_spec s h fun r =>
    { r with
      state := .stale
      graceDeadline :=
        if (s.zone (zoneOf r.tag)).grace = 0 then none
        else some (s.timeBase + 10 * (s.zone (zoneOf r.tag)).grace) }

theorem exec_leaseExpiry_of_early (h : s.record i = some r) (hd : r.leaseDeadline = some d) (hearly : s.timeBase < d) :
    exec (.leaseExpiry i) s = .next s := by
  simp only [exec, execLeaseExpiry, h, hd, reached_some, Nat.not_le.mpr hearly, decide_false, Bool.false_eq_true,
    if_false]

theorem exec_leaseExpiry_of_due (h : s.record i = some r) (hd : r.leaseDeadline = some d) (hdue : d ≤ s.timeBase) :
    exec (.leaseExpiry i) s = .next (leaseExpired i r s) := by
  simp only [exec, execLeaseExpiry, h, hd, reached_some, hdue, decide_true, if_true]

theorem exec_graceExpiry_of_early (h : s.record i = some r) (hd : r.graceDeadline = some d) (hearly : s.timeBase < d) :
    exec (.graceExpiry i) s = .next s := by
  simp only [exec, execGraceExpiry, h, hd, reached_some, Nat.not_le.mpr hearly, decide_false, Bool.false_eq_true,
    and_false, if_false]

theorem exec_graceExpiry_of_due (h : s.record i = some r) (hd : r.graceDeadline = some d) (hstale : r.state = .stale)
    (hdue : d ≤ s.timeBase) : exec (.graceExpiry i) s = .next (graceExpired i r s) := by
  simp only [exec, execGraceExpiry, h, hd, hstale, reached_some, hdue, decide_true, and_self, if_true]

theorem leaseExpired_of_stale (h : s.record i = some r) (hstale : r.state = .stale) :
    leaseExpired i r s = s.setRecord i { r with leaseDeadline := none } := by
  simp only [leaseExpired, hstale, dropLease_of_record h]

theorem leaseExpired_of_frozen (h : s.record i = some r) (hlive : r.state = .live)
    (hfrozen : s.frozen (zoneOf r.tag) = true) :
    leaseExpired i r s = s.setRecord i { r with leaseDeadline := none, pendingAge := .expire } := by
  simp only [leaseExpired, hlive, hfrozen, if_true, dropLease_of_record h, setPendingAge_setRecord]

theorem leaseExpired_of_unfrozen (h : s.record i = some r) (hlive : r.state = .live)
    (hfrozen : s.frozen (zoneOf r.tag) = false) :
    leaseExpired i r s = makeStale i (s.setRecord i { r with leaseDeadline := none }) := by
  simp only [leaseExpired, hlive, hfrozen, Bool.false_eq_true, if_false, dropLease_of_record h]

theorem graceExpired_of_frozen (h : s.record i = some r) (hfrozen : s.frozen (zoneOf r.tag) = true) :
    graceExpired i r s = s.setRecord i { r with graceDeadline := none, pendingAge := .retire } := by
  simp only [graceExpired, hfrozen, if_true, dropGrace_of_record h, setPendingAge_setRecord]

theorem graceExpired_of_unfrozen (h : s.record i = some r) (hfrozen : s.frozen (zoneOf r.tag) = false) :
    graceExpired i r s = retireSlot i (s.setRecord i { r with graceDeadline := none }) := by
  simp only [graceExpired, hfrozen, Bool.false_eq_true, if_false, dropGrace_of_record h]

/-- Settles O22: the expiry drops the deadline; state and freeze field of the record tell what else it does. -/
theorem leaseExpiryAgesTheRecord : Obligations.LeaseExpiryAgesTheRecord := by
  intro s i r d h hd
  have hexec : d ≤ s.timeBase → exec (.leaseExpiry i) s = .next (leaseExpired i r s) := exec_leaseExpiry_of_due h hd
  refine ⟨exec_leaseExpiry_of_early h hd, fun hdue hstale => ?_, fun hdue hlive hfrozen => ?_,
    fun hdue hlive hfrozen => ⟨_, hexec hdue, ?_⟩⟩
  · rw [hexec hdue, leaseExpired_of_stale h hstale]
  · rw [hexec hdue, leaseExpired_of_frozen h hlive hfrozen]
  · rw [leaseExpired_of_unfrozen h hlive hfrozen]
    exact makeStale_becomes (State.record_setRecord_self s i { r with leaseDeadline := none })

/-- Settles O23: the expiry drops the deadline; the freeze field tells what else it does. -/
theorem graceExpiryRetiresTheRecord : Obligations.GraceExpiryRetiresTheRecord := by
  intro s i r d h hd hstale
  have hexec : d ≤ s.timeBase → exec (.graceExpiry i) s = .next (graceExpired i r s) :=
    exec_graceExpiry_of_due h hd hstale
  refine ⟨exec_graceExpiry_of_early h hd, fun hdue hfrozen => ?_, fun hdue hfrozen => ⟨_, hexec hdue, ?_⟩⟩
  · rw [hexec hdue, graceExpired_of_frozen h hfrozen]
  · rw [graceExpired_of_unfrozen h hfrozen]
    exact retireSlot_spec _ (State.record_setRecord_self s i { r with graceDeadline := none })

end Sys2Proof.Machine
end

section
/-! PROOF. The part's own turn on an empty queue (logs 2, 3, 5 and 11): which events are due, and what happens when none
is. -/

namespace Sys2Proof.Machine

variable {s : State}

/-! ## Events in their order (log 3) -/

/-- Insertion by rank is insertion by an order of ranks. -/
theorem insertRanked_eq_orderedInsert (x : Nat × Instr) (l : List (Nat × Instr)) :
    insertRanked x l = l.orderedInsert (fun a b => a.1 ≤ b.1) x := by
  induction l with
  | nil => rfl
  | cons y ys ih => simp only [insertRanked, List.orderedInsert, ih]

/-- The ranks give some order of the events. -/
theorem orderEvents_perm (k : Nat) (l : List Instr) : (orderEvents k l).Perm l := by
  have hinsert : insertRanked = List.orderedInsert fun a b : Nat × Instr => a.1 ≤ b.1 :=
    funext₂ insertRanked_eq_orderedInsert
  unfold orderEvents
  rw [hinsert]
  refine ((List.perm_insertionSort _ _).map _).trans ?_
  rw [List.map_map]
  exact List.Perm.of_eq (List.zipIdx_map_fst 0 l)

/-! ## The events that are due -/

theorem mem_slotsWhere {p : Record → Bool} {i : SlotIx} :
    i ∈ s.slotsWhere p ↔ ∃ r, s.record i = some r ∧ p r = true := by
  have hslot : ∀ k : SlotIx, s.slots.toList[k.val]? = some (s.slot k) := fun k => by simp [State.slot]
  simp only [State.slotsWhere, List.mem_filterMap, Prod.exists, List.mem_zipIdx_iff_getElem?]
  constructor
  · rintro ⟨x, k, hx, hsome⟩
    have hk : k < 512 := by simpa using (List.getElem?_eq_some_iff.mp hx).1
    obtain rfl : s.slot ⟨k, hk⟩ = x := Option.some.inj ((hslot ⟨k, hk⟩).symm.trans hx)
    split at hsome
    · rename_i r hr
      split_ifs at hsome with hp
      obtain rfl : (⟨k, hk⟩ : SlotIx) = i := by
        rw [← Option.some.inj hsome]
        exact Fin.ext (Nat.mod_eq_of_lt hk).symm
      exact ⟨r, hr, hp⟩
    · cases hsome
  · rintro ⟨r, hr, hp⟩
    refine ⟨s.slot i, i.val, hslot i, ?_⟩
    have hrecord : (s.slot i).record = some r := hr
    simp only [hrecord, hp, if_true, Fin.ofNat_eq_cast, Fin.cast_val_eq_self]

/-- The row that takes a block which is this command, or none. -/
def rowOf (k : Option HostKind) : Instr := k.elim .badCommand HostKind.row

/-- What a row takes: it is the left inverse of `rowOf`. -/
def rowTakes : Instr → Option (Option HostKind)
  | .badCommand => some none
  | .create => some (some .create)
  | .retire => some (some .retire)
  | .write => some (some .write)
  | .force => some (some .force)
  | .unforce => some (some .unforce)
  | .read => some (some .read)
  | .list => some (some .list)
  | .setZone => some (some .setZone)
  | .zoneStatus => some (some .zoneStatus)
  | .freeze => some (some .freeze)
  | .thaw => some (some .thaw)
  | .setDevice => some (some .setDevice)
  | .busStart => some (some .busStart)
  | .busStop => some (some .busStop)
  | .clearTable => some (some .clearTable)
  | .counters => some (some .counters)
  | .setMaintMode => some (some .setMaintMode)
  | _ => none


theorem rowTakes_rowOf (k : Option HostKind) : rowTakes (rowOf k) = some k := by
  rcases k with _ | k
  · rfl
  · cases k <;> rfl

theorem rowOf_inj {j k : Option HostKind} : rowOf j = rowOf k ↔ j = k := by
  refine ⟨fun h => Option.some.inj ?_, congrArg rowOf⟩
  rw [← rowTakes_rowOf, h, rowTakes_rowOf]

theorem rowOf_ne {c : Instr} (h : rowTakes c = none) (k : Option HostKind) : rowOf k ≠ c := by
  rintro rfl
  exact nomatch (rowTakes_rowOf k).symm.trans h

theorem mem_hostEvents {c : Instr} : c ∈ s.hostEvents ↔ ∃ b, s.takeable = some b ∧ rowOf b.command = c := by
  cases htake : s.takeable with
  | none => simp [State.hostEvents, htake]
  | some b => cases hcommand : b.command <;> simp [State.hostEvents, htake, hcommand, rowOf, eq_comm]

/-- The lease deadline of the record in slot `i` has come (R74). -/
def State.leaseDue (s : State) (i : SlotIx) : Prop :=
  ∃ r d, s.record i = some r ∧ r.leaseDeadline = some d ∧ d ≤ s.timeBase

/-- The grace deadline of the STALE record in slot `i` has come (R78). -/
def State.graceDue (s : State) (i : SlotIx) : Prop :=
  ∃ r d, s.record i = some r ∧ r.state = .stale ∧ r.graceDeadline = some d ∧ d ≤ s.timeBase

/-- The freeze deadline of zone `z` has come (R99). -/
def State.limitDue (s : State) (z : ZoneIx) : Prop := ∃ d, (s.zone z).freeze = some d ∧ d ≤ s.timeBase

theorem mem_ageEvents {c : Instr} : c ∈ s.ageEvents ↔ (∃ i, s.leaseDue i ∧ .leaseExpiry i = c) ∨
    (∃ i, s.graceDue i ∧ .graceExpiry i = c) ∨ ∃ z, s.limitDue z ∧ .freezeLimitExpiry z = c := by
  simp only [State.ageEvents, List.mem_append, List.mem_map, mem_slotsWhere, List.mem_filter, List.mem_finRange,
    true_and, Bool.and_eq_true, decide_eq_true_eq, reached_iff, State.leaseDue, State.graceDue, State.limitDue, or_assoc,
    exists_and_left]

/-- Every event that is due, by its row. -/
theorem mem_ownEvents {c : Instr} : c ∈ s.ownEvents ↔ (∃ b, s.takeable = some b ∧ rowOf b.command = c) ∨
    (∃ i, s.leaseDue i ∧ .leaseExpiry i = c) ∨ (∃ i, s.graceDue i ∧ .graceExpiry i = c) ∨
    (∃ z, s.limitDue z ∧ .freezeLimitExpiry z = c) ∨ (s.timedOut = true ∧ .frameTimeout = c) ∨
    (s.mayAttempt = true ∧ s.answers ≠ []) ∧ .attemptStart 0 = c := by
  have hport : c ∈ s.portEvents ↔ s.timedOut = true ∧ .frameTimeout = c := by
    rw [State.portEvents, List.mem_ite_nil_right, List.mem_singleton, eq_comm (a := c)]
  have htransmit : c ∈ s.transmitEvents ↔ (s.mayAttempt = true ∧ s.answers ≠ []) ∧ .attemptStart 0 = c := by
    have hwaits : (s.mayAttempt && !s.answers.isEmpty) = true ↔ s.mayAttempt = true ∧ s.answers ≠ [] := by simp
    rw [State.transmitEvents, List.mem_ite_nil_right, List.mem_singleton, hwaits, eq_comm (a := c)]
  simp only [State.ownEvents, List.mem_append, mem_hostEvents, mem_ageEvents, hport, htransmit, or_assoc]

theorem mem_ownEvents_of_not_taking {c : Instr} (h : rowTakes c = none) : c ∈ s.ownEvents ↔
    (∃ i, s.leaseDue i ∧ .leaseExpiry i = c) ∨ (∃ i, s.graceDue i ∧ .graceExpiry i = c) ∨
    (∃ z, s.limitDue z ∧ .freezeLimitExpiry z = c) ∨ (s.timedOut = true ∧ .frameTimeout = c) ∨
    (s.mayAttempt = true ∧ s.answers ≠ []) ∧ .attemptStart 0 = c :=
  mem_ownEvents.trans (or_iff_right fun ⟨b, _, hb⟩ => rowOf_ne h b.command hb)

/-- The row of a command is due when the head block is this command and can be taken. -/
theorem rowOf_mem_ownEvents (k : Option HostKind) :
    rowOf k ∈ s.ownEvents ↔ ∃ b, s.takeable = some b ∧ b.command = k := by
  simp only [mem_ownEvents, rowOf_inj]
  refine or_iff_left ?_
  have htaken := rowTakes_rowOf k
  rintro (⟨i, -, h⟩ | ⟨i, -, h⟩ | ⟨z, -, h⟩ | ⟨-, h⟩ | ⟨-, h⟩) <;> exact nomatch h ▸ htaken

/-! ## The turn -/

theorem step_of_empty (h : s.pending = []) : step s = .next s.ownTurn := by
  simp only [step, h]

theorem ownTurn_of_due (h : s.ownEvents ≠ []) :
    s.ownTurn = (s.withPending (orderEvents s.choices s.ownEvents)).withChoices (s.choices + 1) := by
  unfold State.ownTurn
  split
  · contradiction
  · rfl

theorem ownTurn_of_quiet (h : s.ownEvents = []) :
    s.ownTurn = if s.unreadBits = 0 then passMilli s else s.withPending [.busOnline s.unreadBits] := by
  simp only [State.ownTurn, h]

theorem nextTime_of_lt {t : Nat} (h : t + 1 < 2 ^ 48) : nextTime t = t + 1 := if_pos h

/-- Settles O2: the turn by its three cases, and the due events row by row. -/
theorem ownTurnOnAnEmptyQueue : Obligations.OwnTurnOnAnEmptyQueue := by
  intro s reads n
  have hreads : s.listens = true ↔ reads := State.listens_iff
  have hunread : s.unreadBits = if s.listens then n else 0 := rfl
  refine ⟨fun hempty hdue => ?due, fun hempty hnone hlistens hn => ?quiet, fun hempty hnone hpast => ?milli,
    fun i => (mem_ownEvents_of_not_taking rfl).trans (by simp [State.leaseDue]),
    fun i => (mem_ownEvents_of_not_taking rfl).trans (by simp [State.graceDue]),
    fun z => (mem_ownEvents_of_not_taking rfl).trans (by simp [State.limitDue]),
    (mem_ownEvents_of_not_taking rfl).trans (by simp [State.timedOut]),
    fun q => ?attempt,
    fun k => rowOf_mem_ownEvents (some k), rowOf_mem_ownEvents none⟩
  case due =>
    rw [step_of_empty hempty, ownTurn_of_due hdue]
    exact ⟨_, rfl, rfl, orderEvents_perm _ _⟩
  case quiet =>
    rw [if_pos (hreads.mpr hlistens)] at hunread
    rw [step_of_empty hempty, ownTurn_of_quiet hnone, hunread, if_neg (Nat.ne_of_gt hn)]
    rfl
  case milli =>
    have hread : s.unreadBits = 0 := by
      rw [hunread]
      split_ifs with hlistens
      · exact hpast.resolve_left (not_not_intro (hreads.mp hlistens))
      · rfl
    rw [step_of_empty hempty, ownTurn_of_quiet hnone, if_pos hread]
    exact ⟨_, rfl, rfl, nextTime_of_lt⟩
  case attempt =>
    simp only [mem_ownEvents_of_not_taking (c := .attemptStart q) rfl, State.mayAttempt_iff, reduceCtorEq, and_false,
      exists_false, false_or, Instr.attemptStart.injEq, eq_comm (a := 0)]
    tauto

end Sys2Proof.Machine
end

section
/-! PROOF. PEEK (section 11.3): its checks and the field groups of a slot. -/

namespace Sys2Proof.Machine

variable {s : State} {slot : Word} {field inc spare : Byte} {i : SlotIx} {r : Record}

/-- A request whose code begins with a 0 bit is a frame that does. -/
theorem request_getMsbD_zero {code : Byte} (h : code.getMsbD 0 = false) (slot : Word) (field inc spare : Byte) :
    (code ++ slot ++ field ++ inc ++ spare).getMsbD 0 = false := by
  rw [BitVec.getMsbD_append, BitVec.getMsbD_append, BitVec.getMsbD_append, BitVec.getMsbD_append]
  exact h

theorem endRequest_peek (slot : Word) (field inc spare : Byte) (s : State) :
    endRequest (1#8 ++ slot ++ field ++ inc ++ spare) s = answerRequest 1#8 (s.peekAnswer slot field) s := by
  obtain ⟨hcode, hslot, hfield, -⟩ := request_fields 1#8 slot field inc spare
  rw [endRequest, hcode, hslot, hfield]
  rfl

@[simp] theorem peekAnswer_sampled (f : MaintFrame) :
    (s.sampled f).peekAnswer slot field = s.peekAnswer slot field := rfl

theorem exec_peek_of_idle (hpos : s.maint.position = 0) (hidle : s.maint.poke = .idle) {c : OutcomeCode} {d : BitVec 32}
    (h : s.peekAnswer slot field = (c, d)) (inc spare : Byte) : exec (.peek slot field inc spare) s = .next
      (s.tookFrame (1#8 ++ slot ++ field ++ inc ++ spare) (c.number ++ 1#8 ++ d) .idle) := by
  refine congrArg _ (clockFrame_of_setOutput (State.aligned_of_zero hpos (request_getMsbD_zero rfl _ _ _ _)) ?_)
  rw [endFrame, sampled_poke, hidle]
  simp only [endRequest_peek, peekAnswer_sampled, h]
  rfl

/-! ## The checks (R176) -/

theorem peekAnswer_of_slot (h : 511 < slot.toNat) : s.peekAnswer slot field = (.badArgument, 0) := by
  rw [State.peekAnswer, slotOfWord_of_large h]

theorem peekAnswer_of_field (h : 8 < field.toNat) : s.peekAnswer slot field = (.badArgument, 0) := by
  rw [State.peekAnswer]
  cases slotOfWord slot with
  | none => rfl
  | some i => exact if_pos h

theorem peekAnswer_of_free (hslot : slot.toNat = i.val) (hfield : field.toNat ≤ 8) (h : s.record i = none) :
    s.peekAnswer slot field = (.noRecord, peekFree field (s.incarnation i)) := by
  simp only [State.peekAnswer, slotOfWord_of_lt hslot, if_neg (Nat.not_lt.mpr hfield), h]

theorem peekAnswer_of_record (hslot : slot.toNat = i.val) (hfield : field.toNat ≤ 8) (h : s.record i = some r) :
    s.peekAnswer slot field = (.ok, r.peekField field (s.incarnation i) s.timeBase) := by
  simp only [State.peekAnswer, slotOfWord_of_lt hslot, if_neg (Nat.not_lt.mpr hfield), h]

/-! ## The field groups (R176) -/

theorem peekFree_one (inc : Byte) : peekFree 1 inc = 0#24 ++ inc := by
  refine BitVec.eq_of_toNat_eq ?_
  rw [toNat_append_eq_add]
  simp [peekFree]
  omega

/-- Field 1, by the numbers of pending step, quality and producer. -/
theorem peekField_step {a : BitVec 2} {q : BitVec 3} {p : Byte} (ha : BitVec.ofNat 2 r.pendingAge.number = a)
    (hq : r.qualityNumber = q) (hp : r.producer.number = p) (inc : Byte) (now : Nat) :
    r.peekField 1 inc now = 0#6 ++ a ++ 0#1 ++ q ++ BitVec.ofNat 4 r.length ++ p ++ inc := by
  rw [← ha, ← hq, ← hp]
  rfl

/-- GONE and NONE are no record's qualities (R7, R8). -/
theorem Record.quality_held (r : Record) : r.quality ≠ .gone ∧ r.quality ≠ .nothing := by
  unfold Record.quality
  split_ifs <;> exact ⟨nofun, nofun⟩

/-- Byte `k` of field 8 is the node at position `k` of the subscriber list. -/
theorem peekField_nodes (r : Record) (inc : Byte) (now : Nat) : ∀ k, k < 4 →
    (r.peekField 8 inc now).extractLsb' (24 - 8 * k) 8 = r.subscribers[k]?.elim 0#8 fun x => x.node.setWidth 8 := by
  have hnode : ∀ k, nodeAt r.subscribers k = r.subscribers[k]?.elim 0#8 fun x => x.node.setWidth 8 := fun k => by
    unfold nodeAt
    cases r.subscribers[k]? <;> rfl
  intro k hk
  rw [← hnode]
  have hfield : r.peekField 8 inc now = nodeAt r.subscribers 0 ++ nodeAt r.subscribers 1 ++ nodeAt r.subscribers 2 ++
    nodeAt r.subscribers 3 := rfl
  rw [hfield]
  match k, hk with
  | 0, _ =>
    rw [BitVec.extractLsb'_append_eq_of_le (by decide), BitVec.extractLsb'_append_eq_of_le (by decide)]
    exact BitVec.extractLsb'_append_eq_left
  | 1, _ =>
    rw [BitVec.extractLsb'_append_eq_of_le (by decide), BitVec.extractLsb'_append_eq_of_le (by decide)]
    exact BitVec.extractLsb'_append_eq_right
  | 2, _ =>
    rw [BitVec.extractLsb'_append_eq_of_le (by decide)]
    exact BitVec.extractLsb'_append_eq_right
  | 3, _ => exact BitVec.extractLsb'_append_eq_right

/-- Settles O59: each check and each field group by the answer that PEEK gives at its frame end. -/
theorem peekReportsAFieldGroup : Obligations.PeekReportsAFieldGroup := by
  intro s slot field inc spare hpos hidle answer four
  have hanswer : ∀ {c d}, s.peekAnswer slot field = (c, d) → answer c d := fun h =>
    exec_peek_of_idle hpos hidle h inc spare
  refine ⟨fun h => hanswer (h.elim peekAnswer_of_slot peekAnswer_of_field), fun i hslot hfield => ⟨fun hfree => ?_,
    fun r hrecord => ?_⟩⟩
  · have hnone := peekAnswer_of_free hslot hfield hfree
    refine ⟨?_, fun hne => hanswer (hnone.trans (by rw [peekFree, if_neg hne]))⟩
    rintro rfl
    exact hanswer (hnone.trans (by rw [peekFree_one]))
  have hok : ∀ d, r.peekField field (s.incarnation i) s.timeBase = d → answer .ok d := fun d hd =>
    hanswer (hd ▸ peekAnswer_of_record hslot hfield hrecord)
  refine ⟨?state, ?step, ?_, ?_, ?_, ?_, ?_, ?_, ?nodes⟩
  case state =>
    rintro rfl
    have hstate : BitVec.ofNat 2 r.state.number = if r.state = .live then 1#2 else 2#2 := by cases r.state <;> rfl
    exact hok _ (hstate ▸ rfl)
  case step =>
    rintro rfl
    obtain ⟨hgone, hnothing⟩ := r.quality_held
    refine hok _ (peekField_step ?_ ?_ ?_ _ _)
    · cases r.pendingAge <;> rfl
    · unfold Record.qualityNumber
      cases hq : r.quality with
      | gone => exact absurd hq hgone
      | nothing => exact absurd hq hnothing
      | _ => rfl
    · cases r.producer <;> rfl
  case nodes =>
    rintro rfl
    exact ⟨_, hok _ rfl, peekField_nodes r _ _⟩
  all_goals
    rintro rfl
    exact hok _ rfl

end Sys2Proof.Machine
end

section
/-! PROOF. The census: what directory, free-slot queue and deferred update queue hold, and what they look at in slots
and zones. Steps on records, requests, answers and the line leave it alone. -/

namespace Sys2Proof.Machine

variable {s u : State}

/-! ## The census of a state -/

/-- What a record keeps from its creation to its retirement, and the deferred queue looks at. -/
structure Identity where
  tag : Tag
  producer : Producer
  length : Nat

def Record.identity (r : Record) : Identity := ⟨r.tag, r.producer, r.length⟩

/-- The queues and the directory, with what they look at in slots and zones. -/
structure Census where
  deferred : List Deferred
  directory : List DirEntry
  freeQueue : List SlotIx
  incarnation : SlotIx → Byte
  identity : SlotIx → Option Identity
  frozen : ZoneIx → Bool

def State.census (s : State) : Census :=
  ⟨s.deferred, s.directory, s.freeQueue, s.incarnation, fun i => (s.record i).map Record.identity, s.frozen⟩

theorem census_identity {i : SlotIx} {r : Record} (h : s.record i = some r) :
    s.census.identity i = some r.identity := congrArg (Option.map Record.identity) h

theorem census_identity_eq_some {i : SlotIx} {x : Identity} :
    s.census.identity i = some x ↔ ∃ r, s.record i = some r ∧ r.identity = x := Option.map_eq_some_iff

@[simp] theorem census_withPort (x : Port) : (s.withPort x).census = s.census := rfl
@[simp] theorem census_withAnswers (x : List Answer) : (s.withAnswers x).census = s.census := rfl
@[simp] theorem census_withTransmitter (x : Option Frame) : (s.withTransmitter x).census = s.census := rfl
@[simp] theorem census_withHost (x : HostUnit) : (s.withHost x).census = s.census := rfl
@[simp] theorem census_withMaint (x : Maint) : (s.withMaint x).census = s.census := rfl
@[simp] theorem census_withChoices (x : Nat) : (s.withChoices x).census = s.census := rfl
@[simp] theorem census_withPending (x : List Instr) : (s.withPending x).census = s.census := rfl
@[simp] theorem census_count (k : CounterId) : (s.count k).census = s.census := rfl
@[simp] theorem census_joinAnswers (b : AnswerBody) (n : Addr) (t : Tag) :
    (joinAnswers b n t s).census = s.census := rfl

theorem census_withDirectory (x : List DirEntry) :
    (s.withDirectory x).census = { s.census with directory := x } := rfl

theorem census_withFreeQueue (x : List SlotIx) : (s.withFreeQueue x).census = { s.census with freeQueue := x } := rfl

theorem census_withDeferred (x : List Deferred) : (s.withDeferred x).census = { s.census with deferred := x } := rfl

theorem census_foldl {α : Type} {f : State → α → State} (h : ∀ s a, (f s a).census = s.census) (l : List α) :
    ∀ s, (l.foldl f s).census = s.census := by
  induction l with
  | nil => exact fun _ => rfl
  | cons a l ih => exact fun s => (ih _).trans (h s a)

/-- The freeze unit sets or clears the freeze field of one zone (R85, R95). -/
theorem census_setZone (z : ZoneIx) (x : Zone) : (s.setZone z x).census =
    { s.census with frozen := Function.update s.census.frozen z x.freeze.isSome } := by
  refine congrArg (fun f => { s.census with frozen := f }) (funext fun y => ?_)
  simp only [State.frozen, State.zone_setZone, Function.update_apply, State.census]
  split_ifs <;> rfl

/-- A zone entry with its freeze field as it was. -/
theorem census_setZone_of_freeze {z : ZoneIx} {x : Zone} (h : x.freeze = (s.zone z).freeze) :
    (s.setZone z x).census = s.census := by
  have hkept : Function.update s.census.frozen z x.freeze.isSome = s.census.frozen := by
    rw [h]
    exact Function.update_eq_self z s.census.frozen
  rw [census_setZone, hkept]

/-- The census looks at slots, freeze fields, queues and directory alone. -/
theorem census_congr {z : ZoneIx} {x : Zone} (hslots : u.slots = s.slots) (hzones : u.zones = (s.setZone z x).zones)
    (hfreeze : x.freeze = (s.zone z).freeze) (hdeferred : u.deferred = s.deferred)
    (hdirectory : u.directory = s.directory) (hqueue : u.freeQueue = s.freeQueue) : u.census = s.census := by
  have hcensus : u.census = (s.setZone z x).census := by
    unfold State.census
    congr 1
    · exact funext (State.incarnation_congr hslots)
    · exact funext fun i => congrArg (Option.map Record.identity) (State.record_congr hslots i)
    · exact funext fun y => congrArg (fun x : Zone => x.freeze.isSome) (State.zone_congr hzones y)
  exact hcensus.trans (census_setZone_of_freeze hfreeze)

/-- A slot is filled or freed. -/
theorem census_setSlot (i : SlotIx) (x : Slot) : (s.setSlot i x).census =
    { s.census with
      incarnation := Function.update s.census.incarnation i x.incarnation
      identity := Function.update s.census.identity i (x.record.map Record.identity) } := by
  refine congrArg₂ (fun f g => { s.census with incarnation := f, identity := g }) (funext fun j => ?_)
    (funext fun j => ?_)
  · simp only [State.incarnation, State.slot_setSlot, Function.update_apply, State.census]
    split_ifs <;> rfl
  · simp only [State.record, State.slot_setSlot, Function.update_apply, State.census]
    split_ifs <;> rfl

theorem census_setRecord (i : SlotIx) (r : Record) : (s.setRecord i r).census =
    { s.census with identity := Function.update s.census.identity i (some r.identity) } := by
  have hkept : Function.update s.census.incarnation i (s.incarnation i) = s.census.incarnation :=
    Function.update_eq_self i s.census.incarnation
  rw [State.setRecord, census_setSlot, hkept]
  rfl

/-- A record changes in what the deferred queue does not look at. -/
theorem census_setRecord_of_identity {i : SlotIx} {r r' : Record} (h : s.record i = some r)
    (hr : r'.identity = r.identity) : (s.setRecord i r').census = s.census := by
  have hkept : Function.update s.census.identity i (some r'.identity) = s.census.identity := by
    rw [hr, ← census_identity h, Function.update_eq_self]
  rw [census_setRecord, hkept]

/-! ## Records (chapters 1, 4 and 5) -/

theorem VisiblyChanged.census_eq {i : SlotIx} {r0 r : Record} (h : VisiblyChanged i r s u)
    (h0 : s.record i = some r0) (hr : r.identity = r0.identity) : u.census = s.census := by
  have hcensus : u.census = (s.setRecord i _).census := census_congr h.record h.zone rfl
    (congrArg State.deferred h.rest :) (congrArg State.directory h.rest :) (congrArg State.freeQueue h.rest :)
  exact hcensus.trans (census_setRecord_of_identity h0 hr)

/-- A step on a record, visible or not, that keeps its identity. -/
theorem Becomes.census_eq {i : SlotIx} {r r' : Record} (h : Becomes i r r' s u) (hr : s.record i = some r)
    (hid : r'.identity = r.identity) : u.census = s.census := by
  unfold Becomes at h
  split_ifs at h
  · rw [h]
    exact census_setRecord_of_identity hr hid
  · exact h.census_eq hr hid

theorem census_recordStep {f : Record → Record} (hf : ∀ r, (f r).identity = r.identity) (i : SlotIx) :
    (recordStep i f s).census = s.census := by
  cases h : s.record i with
  | none => simp only [recordStep, h]
  | some r => exact (recordStep_spec s h f).census_eq h (hf r)

theorem Record.identity_renewed (lease t : Nat) (r : Record) : (r.renewed lease t).identity = r.identity := by
  unfold Record.renewed
  split <;> rfl

theorem Record.identity_applied (v : List Byte) (q : Option Byte) (t : Nat) (lease : Option Nat) (r : Record) :
    (r.applied v q t lease).identity = r.identity := by
  cases lease with
  | none => rfl
  | some l =>
    exact Record.identity_renewed l t
      { r with processValue := some v, lastSequence := q.or r.lastSequence, lastUpdate := t }

@[simp] theorem census_applyStep (i : SlotIx) (v : List Byte) (q : Option Byte) (renew : Bool) :
    (applyStep i v q renew s).census = s.census := census_recordStep (fun _ => Record.identity_applied ..) i

@[simp] theorem census_makeStale (i : SlotIx) : (makeStale i s).census = s.census := by
  unfold makeStale
  apply census_recordStep
  exact fun _ => rfl

@[simp] theorem census_forceStep (i : SlotIx) (v : Option (List Byte)) : (forceStep i v s).census = s.census := by
  unfold forceStep
  apply census_recordStep
  exact fun _ => rfl

@[simp] theorem census_renewAlone (i : SlotIx) : (renewAlone i s).census = s.census := by
  unfold renewAlone
  split
  · rename_i h
    exact census_setRecord_of_identity h (Record.identity_renewed ..)
  · rfl

@[simp] theorem census_touchUpdate (i : SlotIx) : (touchUpdate i s).census = s.census := by
  unfold touchUpdate
  split
  · rename_i h
    exact census_setRecord_of_identity h rfl
  · rfl

@[simp] theorem census_setPendingAge (i : SlotIx) (p : AgeStep) : (setPendingAge i p s).census = s.census := by
  unfold setPendingAge
  split
  · rename_i h
    exact census_setRecord_of_identity h rfl
  · rfl

@[simp] theorem census_dropLease (i : SlotIx) : (dropLease i s).census = s.census := by
  unfold dropLease
  split
  · rename_i h
    exact census_setRecord_of_identity h rfl
  · rfl

@[simp] theorem census_dropGrace (i : SlotIx) : (dropGrace i s).census = s.census := by
  unfold dropGrace
  split
  · rename_i h
    exact census_setRecord_of_identity h rfl
  · rfl

@[simp] theorem census_leaseExpired (i : SlotIx) (r : Record) : (leaseExpired i r s).census = s.census := by
  unfold leaseExpired
  split
  · exact census_dropLease i
  · split <;> simp

@[simp] theorem census_applyDeferred (e : Deferred) : (applyDeferred s e).census = s.census := by
  unfold applyDeferred
  split <;> simp

/-! ## Requests and answers (chapters 7 to 9) -/

@[simp] theorem census_setMarker (ref : Ref) (n : Addr) (m : Bool) : (setMarker ref n m s).census = s.census := by
  unfold setMarker
  split
  · rename_i h
    split
    · exact census_setRecord_of_identity h rfl
    · rfl
  · rfl

@[simp] theorem census_markUnsent (a : Answer) : (markUnsent s a).census = s.census := by
  unfold markUnsent
  split <;> simp

@[simp] theorem census_notifyRequest (t : Tag) (ref : Ref) (n : Addr) :
    (notifyRequest t ref n s).census = s.census := by
  unfold notifyRequest
  split <;> simp

@[simp] theorem census_confirm (n : Addr) (t : Tag) (q : Byte) (c : OutcomeCode) :
    (confirm n t q c s).census = s.census := by
  unfold confirm
  split <;> rfl

@[simp] theorem census_countRefusal (c : OutcomeCode) : (countRefusal c s).census = s.census := by
  unfold countRefusal
  split <;> rfl

@[simp] theorem census_addSubscription (i : SlotIx) (n : Addr) : (addSubscription i n s).census = s.census := by
  unfold addSubscription
  split
  · rename_i h
    exact census_setRecord_of_identity h rfl
  · rfl

@[simp] theorem census_returnSubscription (i : SlotIx) (n : Addr) : (returnSubscription i n s).census = s.census := by
  unfold returnSubscription
  split
  · rename_i h
    split
    · exact census_setRecord_of_identity h rfl
    · rfl
  · rfl

theorem census_doSubscribe (n : Addr) (t : Tag) (q : Byte) : (doSubscribe n t q s).census = s.census := by
  unfold doSubscribe
  split <;> simp

theorem census_doUnsubscribe (n : Addr) (t : Tag) (q : Byte) : (doUnsubscribe n t q s).census = s.census := by
  unfold doUnsubscribe
  split <;> simp

theorem census_doQuery (n : Addr) (p : Tag) (v : List Byte) : (doQuery n p v s).census = s.census := by
  simp only [doQuery]
  split
  · rfl
  split
  · rfl
  split
  · rfl
  · rw [foldl_joinAnswers, census_withAnswers]

/-! ## Attempts and the end of a stop (chapters 8 and 9) -/

@[simp] theorem census_goOffline : (goOffline s).census = s.census :=
  census_foldl (fun _ a => census_markUnsent a) s.answers s

@[simp] theorem census_completeStop : (completeStop s).census = s.census := by
  unfold completeStop
  split <;> rfl

@[simp] theorem census_endAttempt : (endAttempt s).census = s.census := by
  simp only [endAttempt]
  split <;> simp

@[simp] theorem census_clearTaken (a : Answer) : (clearTaken a s).census = s.census := by
  unfold clearTaken
  split <;> simp

@[simp] theorem census_expireEntry (k : Nat) (a : Answer) : (expireEntry k a s).census = s.census :=
  census_markUnsent (s := s.withAnswers _) a

theorem census_startAttempt (n : Nat) : ∀ s : State, (startAttempt n s).census = s.census := by
  induction n with
  | zero => exact fun _ => rfl
  | succ n ih =>
    intro s
    unfold startAttempt
    split
    · rfl
    · split
      · exact (ih _).trans (census_expireEntry _ _)
      · exact census_clearTaken (s := s) _

@[simp] theorem census_tryAttempt : (tryAttempt s).census = s.census := by
  unfold tryAttempt
  split
  · exact census_startAttempt _ s
  · rfl

@[simp] theorem census_withoutStarted : (withoutStarted s).census = s.census := rfl

@[simp] theorem census_returnEntry (a : Answer) (n : Nat) : (returnEntry a n s).census = s.census := by
  unfold returnEntry
  split
  · split
    · unfold passOnMissed
      split <;> simp
    · rfl
  · rfl

@[simp] theorem census_loseAttempt : (loseAttempt s).census = s.census := by
  unfold loseAttempt
  split <;> simp

@[simp] theorem census_faultAttempt : (faultAttempt s).census = s.census := by
  unfold faultAttempt
  split
  · simp
  · split
    · simp
    · rw [census_endAttempt, raiseTxFault, census_withHost, census_count, census_markUnsent, census_withoutStarted]

/-! ## The maintenance port (chapter 11) -/

@[simp] theorem census_setOutput (out : MaintFrame) (p : PokeProgress) : (setOutput out p s).census = s.census := rfl

theorem census_endRequest (f : MaintFrame) : (endRequest f s).census = s.census := by
  unfold endRequest
  split
  case h_5 =>
    unfold doAttention
    split <;> rfl
  all_goals rfl

/-- A frame end changes a record by the patch of a POKE alone (R173, R180). -/
theorem census_endFrame (f : MaintFrame) : (endFrame f s).census = s.census := by
  unfold endFrame
  split
  · exact census_endRequest f
  · unfold endPokeData
    split <;> simp
  · unfold endPokeReadBack
    split <;> rfl
  · rfl

@[simp] theorem census_realign : (realign s).census = s.census := rfl

@[simp] theorem census_fallingEdge : (fallingEdge s).census = s.census := rfl

@[simp] theorem census_seeEdge : (seeEdge s).census = s.census := by
  simp only [seeEdge, census_withMaint]
  split_ifs <;> simp

@[simp] theorem census_sampleBit (b : Bool) : (sampleBit b s).census = s.census := by
  simp only [sampleBit]
  split_ifs
  · rfl
  · rfl
  · exact census_endFrame _

@[simp] theorem census_clockEdge (e : MclkEdge) : (clockEdge e s).census = s.census := by
  simp only [clockEdge]
  split <;> simp

theorem census_clockFrame (f : MaintFrame) : (clockFrame f s).census = s.census :=
  census_foldl (fun _ _ => census_clockEdge _) (frameBits f) s

/-! ## Host commands (chapter 10) -/

theorem census_decideWrite (b : Block) : (decideWrite b s).2.2.census = s.census := by
  unfold decideWrite
  split
  · rfl
  · split_ifs
    · rfl
    · rfl
    · rfl
    · exact census_applyStep ..

theorem census_decideForce (b : Block) : (decideForce b s).2.2.census = s.census := by
  unfold decideForce
  split
  · rfl
  · split_ifs
    · rfl
    · rfl
    · exact census_forceStep ..

theorem census_decideUnforce (b : Block) : (decideUnforce b s).2.2.census = s.census := by
  unfold decideUnforce
  split
  · rfl
  · split_ifs
    · rfl
    · rfl
    · exact census_forceStep ..

theorem census_decideRead (b : Block) : (decideRead b s).2.2.census = s.census := by
  unfold decideRead
  split <;> rfl

theorem census_decideList (b : Block) : (decideList b s).2.2.census = s.census := by
  simp only [decideList]
  split_ifs <;> rfl

/-- SET_ZONE writes settings and leaves the freeze field (R48). -/
theorem census_decideSetZone (b : Block) : (decideSetZone b s).2.2.census = s.census := by
  simp only [decideSetZone]
  split
  · split_ifs
    · rfl
    · split
      · exact census_setZone_of_freeze rfl
      · rfl
  · rfl

theorem census_decideZoneStatus (b : Block) : (decideZoneStatus b s).2.2.census = s.census := by
  unfold decideZoneStatus
  split <;> rfl

theorem census_decideSetDevice (b : Block) : (decideSetDevice b s).2.2.census = s.census := by
  unfold decideSetDevice
  split
  · rfl
  · split_ifs <;> rfl

theorem census_decideBusStart (b : Block) : (decideBusStart b s).2.2.census = s.census := by
  unfold decideBusStart
  split_ifs <;> rfl

theorem census_decideBusStop (b : Block) : (decideBusStop b s).2.2.census = s.census := by
  unfold decideBusStop
  split_ifs
  · rfl
  · exact census_goOffline

theorem census_decideCounters (b : Block) : (decideCounters b s).2.2.census = s.census := by
  unfold decideCounters
  split <;> rfl

theorem census_decideSetMaintMode (b : Block) : (decideSetMaintMode b s).2.2.census = s.census := by
  unfold decideSetMaintMode
  split <;> rfl

end Sys2Proof.Machine
end

section
/-! PROOF. The deferred update queue over every step (R89): what makes its entries sound, the few operations that move
the census, and every command. -/

namespace Sys2Proof.Machine

variable {s u v : State} {c : Census} {i : SlotIx} {x : Identity}

/-! ## A sound census -/

/-- The entry is for a node's record of its incarnation, in a frozen zone, with a value of the record's length (R89). -/
def Census.Holds (c : Census) (e : Deferred) : Prop :=
  ∃ x n, c.identity e.slot = some x ∧ c.incarnation e.slot = e.incarnation ∧ c.frozen (zoneOf x.tag) = true ∧
    e.value.length = x.length ∧ x.producer = .node n

/-- `DeferredSound` on the census, with what it needs of `TableSound`: the directory names records by their tags, and
the free slots are FREE and queued once. -/
structure ParkingSound (c : Census) : Prop where
  named : ∀ e ∈ c.directory, ∃ x, c.identity e.slot = some x ∧ x.tag = e.tag
  freeOnce : c.freeQueue.Nodup
  free : ∀ i ∈ c.freeQueue, c.identity i = none
  bounded : c.deferred.length ≤ 32
  oncePerSlot : c.deferred.Pairwise fun a b => a.slot ≠ b.slot
  held : ∀ e ∈ c.deferred, c.Holds e

theorem parkingSound_of_sound (ht : TableSound s) (hd : DeferredSound s) : ParkingSound s.census where
  named e he := by
    obtain ⟨r, hr, htag⟩ := (ht.entries e.tag e.slot).mp he
    exact ⟨r.identity, census_identity hr, htag⟩
  freeOnce := ht.freeOnce
  free i hi := congrArg (Option.map Record.identity) ((ht.free i).mp hi)
  bounded := hd.bounded
  oncePerSlot := hd.oncePerSlot
  held e he := by
    obtain ⟨r, n, hr, hrest⟩ := hd.held e he
    exact ⟨r.identity, n, census_identity hr, hrest⟩

theorem ParkingSound.deferredSound (h : ParkingSound s.census) : DeferredSound s where
  bounded := h.bounded
  oncePerSlot := h.oncePerSlot
  held e he := by
    obtain ⟨x, n, hx, hrest⟩ := h.held e he
    obtain ⟨r, hr, rfl⟩ := census_identity_eq_some.mp hx
    exact ⟨r, n, hr, hrest⟩

/-- A part without records, entries or directory. -/
theorem parkingSound_of_free (hdeferred : s.deferred = []) (hdirectory : s.directory = [])
    (hqueue : s.freeQueue.Nodup) (hfree : ∀ i, s.record i = none) : ParkingSound s.census where
  named := by simp [State.census, hdirectory]
  freeOnce := hqueue
  free i _ := congrArg (Option.map Record.identity) (hfree i)
  bounded := by simp [State.census, hdeferred]
  oncePerSlot := by simp [State.census, hdeferred]
  held := by simp [State.census, hdeferred]

/-- An entry holds on while its slot stands and no zone thaws. -/
theorem Census.Holds.mono {d : Census} {e : Deferred} (h : c.Holds e) (hid : d.identity e.slot = c.identity e.slot)
    (hinc : d.incarnation e.slot = c.incarnation e.slot) (hfrozen : ∀ z, c.frozen z = true → d.frozen z = true) :
    d.Holds e := by
  obtain ⟨x, n, hx, hi, hf, hrest⟩ := h
  exact ⟨x, n, hid.trans hx, hinc.trans hi, hfrozen _ hf, hrest⟩

/-- Slot `i` holds no record of a frozen zone. -/
def Census.Unfrozen (c : Census) (i : SlotIx) : Prop := ∀ x, c.identity i = some x → c.frozen (zoneOf x.tag) = false

theorem Census.unfrozen_of_free (h : c.identity i = none) : c.Unfrozen i := fun x hx => by simp [h] at hx

theorem census_unfrozen {r : Record} (h : s.record i = some r) (hf : s.frozen (zoneOf r.tag) = false) :
    s.census.Unfrozen i := by
  intro x hx
  obtain rfl : r.identity = x := Option.some.inj ((census_identity h).symm.trans hx)
  exact hf

/-- No entry is for a slot without a record of a frozen zone. -/
theorem ParkingSound.slot_ne (h : ParkingSound c) (hi : c.Unfrozen i) {e : Deferred} (he : e ∈ c.deferred) :
    e.slot ≠ i := by
  rintro rfl
  obtain ⟨x, n, hx, -, hf, -⟩ := h.held e he
  simp [hi x hx] at hf

/-- The directory finds a record under its tag (R25). -/
theorem ParkingSound.tag_of_lookup (h : ParkingSound s.census) {t : Tag} {r : Record} (hl : s.lookup t = some i)
    (hr : s.record i = some r) : r.tag = t := by
  rw [State.lookup, Option.map_eq_some_iff] at hl
  obtain ⟨e, he, rfl⟩ := hl
  obtain ⟨x, hx, htag⟩ := h.named e (List.mem_of_find?_eq_some he)
  obtain rfl : r.identity = x := Option.some.inj ((census_identity hr).symm.trans hx)
  exact htag.trans (by simpa using List.find?_some he)

/-! ## The operations that move the census -/

/-- The census once the record of tag `t` in slot `i` has been retired (R17). -/
def Census.retired (c : Census) (i : SlotIx) (t : Tag) : Census :=
  { c with
    directory := c.directory.filter fun e => e ≠ ⟨t, i⟩
    freeQueue := c.freeQueue ++ [i]
    incarnation := Function.update c.incarnation i (c.incarnation i + 1)
    identity := Function.update c.identity i none }

theorem Census.retired_identity_eq_some {t : Tag} {j : SlotIx} :
    (c.retired i t).identity j = some x ↔ j ≠ i ∧ c.identity j = some x := by
  simp only [Census.retired, Function.update_apply]
  split_ifs with h <;> simp [h]

/-- A retirement in an unfrozen zone frees a slot that no entry is for. -/
theorem ParkingSound.retired (h : ParkingSound c) (hx : c.identity i = some x) (hi : c.Unfrozen i) :
    ParkingSound (c.retired i x.tag) where
  named e he := by
    obtain ⟨he, hne⟩ := List.mem_filter.mp he
    obtain ⟨y, hy, htag⟩ := h.named e he
    refine ⟨y, Census.retired_identity_eq_some.mpr ⟨?_, hy⟩, htag⟩
    rintro rfl
    obtain rfl : x = y := Option.some.inj (hx.symm.trans hy)
    simp [htag] at hne
  freeOnce := by
    have hi : i ∉ c.freeQueue := fun hmem => by simp [h.free i hmem] at hx
    rw [Census.retired, ← List.concat_eq_append]
    exact h.freeOnce.concat hi
  free j hj := by
    rcases List.mem_append.mp hj with hj | hj
    · simp [Census.retired, Function.update_apply, h.free j hj]
    · simp [Census.retired, List.mem_singleton.mp hj]
  bounded := h.bounded
  oncePerSlot := h.oncePerSlot
  held e he := (h.held e he).mono (Function.update_of_ne (h.slot_ne hi he) ..)
    (Function.update_of_ne (h.slot_ne hi he) ..) fun _ => id

/-- A creation fills a FREE slot, which no entry is for (R15). -/
theorem ParkingSound.created (h : ParkingSound c) {rest : List SlotIx} (hqueue : c.freeQueue = i :: rest)
    {d : List DirEntry} (hd : ∀ e ∈ d, e ∈ c.directory ∨ e = ⟨x.tag, i⟩) :
    ParkingSound { c with
      directory := d, freeQueue := rest, identity := Function.update c.identity i (some x) } := by
  obtain ⟨hnew, hrest⟩ := List.nodup_cons.mp (hqueue ▸ h.freeOnce)
  have hfree : c.identity i = none := h.free i (by simp [hqueue])
  refine ⟨fun e he => ?_, hrest, fun j hj => ?_, h.bounded, h.oncePerSlot, fun e he => ?_⟩
  · rcases hd e he with he | rfl
    · obtain ⟨y, hy, htag⟩ := h.named e he
      have hne : e.slot ≠ i := fun hei => by simp [hei, hfree] at hy
      exact ⟨y, (Function.update_of_ne hne ..).trans hy, htag⟩
    · exact ⟨x, Function.update_self .., rfl⟩
  · have hne : j ≠ i := fun hji => hnew (hji ▸ hj)
    exact (Function.update_of_ne hne ..).trans (h.free j (by simp [hqueue, hj]))
  · have hne := h.slot_ne (Census.unfrozen_of_free hfree) he
    exact (h.held e he).mono (Function.update_of_ne hne ..) rfl fun _ => id

/-- A new entry at the tail, for a record of a frozen zone that has none (R90). -/
theorem ParkingSound.parked (h : ParkingSound c) {n : Addr} {q : Byte} {w : List Byte}
    (hroom : c.deferred.length < 32) (hnone : ∀ e ∈ c.deferred, e.slot ≠ i) (hx : c.identity i = some x)
    (hf : c.frozen (zoneOf x.tag) = true) (hlen : w.length = x.length) (hp : x.producer = .node n) :
    ParkingSound { c with deferred := c.deferred ++ [⟨i, c.incarnation i, q, w⟩] } where
  named := h.named
  freeOnce := h.freeOnce
  free := h.free
  bounded := by simpa using hroom
  oncePerSlot := List.pairwise_append.mpr ⟨h.oncePerSlot, List.pairwise_singleton .., by simpa using hnone⟩
  held e he := by
    rcases List.mem_append.mp he with he | he
    · exact h.held e he
    · obtain rfl := List.mem_singleton.mp he
      exact ⟨x, n, hx, rfl, hf, hlen, hp⟩

/-- The entries of one slot take another sequence, and another value of the record's length (R91). -/
theorem ParkingSound.superseded (h : ParkingSound c) {q : Byte} {w : List Byte} (hx : c.identity i = some x)
    (hlen : w.length = x.length) :
    ParkingSound { c with
      deferred := c.deferred.map fun e =>
        if e.slot = i ∧ e.incarnation = c.incarnation i then { e with sequence := q, value := w } else e } where
  named := h.named
  freeOnce := h.freeOnce
  free := h.free
  bounded := by simpa using h.bounded
  oncePerSlot := by
    refine List.pairwise_map.mpr (h.oncePerSlot.imp fun {a b} hab => ?_)
    split_ifs <;> exact hab
  held e he := by
    obtain ⟨a, ha, rfl⟩ := List.mem_map.mp he
    obtain ⟨y, n, hy, hinc, hf, hy', hp⟩ := h.held a ha
    split_ifs with hslot
    · obtain rfl : x = y := Option.some.inj (hx.symm.trans (hslot.1 ▸ hy))
      exact ⟨x, n, hy, hinc, hf, hlen, hp⟩
    · exact ⟨y, n, hy, hinc, hf, hy', hp⟩

/-- A zone freezes (R85). -/
theorem ParkingSound.freeze (h : ParkingSound c) (z : ZoneIx) :
    ParkingSound { c with frozen := Function.update c.frozen z true } := by
  refine ⟨h.named, h.freeOnce, h.free, h.bounded, h.oncePerSlot,
    fun e he => (h.held e he).mono rfl rfl fun y hy => ?_⟩
  simp only [Function.update_apply]
  split_ifs
  · rfl
  · exact hy

/-- A zone thaws, once its entries have left the queue (R95, R96). -/
theorem ParkingSound.thaw (h : ParkingSound c) {z : ZoneIx} {l : List Deferred} (hl : l.Sublist c.deferred)
    (hz : ∀ e ∈ l, ∀ x, c.identity e.slot = some x → zoneOf x.tag ≠ z) :
    ParkingSound { c with deferred := l, frozen := Function.update c.frozen z false } where
  named := h.named
  freeOnce := h.freeOnce
  free := h.free
  bounded := hl.length_le.trans h.bounded
  oncePerSlot := h.oncePerSlot.sublist hl
  held e he := by
    obtain ⟨x, n, hx, hinc, hf, hrest⟩ := h.held e (hl.subset he)
    exact ⟨x, n, hx, hinc, (Function.update_of_ne (hz e he x hx) ..).trans hf, hrest⟩

/-! ## Operations that keep the queue sound -/

/-- From `s` to `u` the census stays sound. -/
def KeepsParking (s u : State) : Prop := ParkingSound s.census → ParkingSound u.census

theorem KeepsParking.refl (s : State) : KeepsParking s s := id

theorem KeepsParking.trans (h : KeepsParking s u) (g : KeepsParking u v) : KeepsParking s v := g ∘ h

theorem keepsParking_of_census (h : u.census = s.census) : KeepsParking s u := fun hs => h ▸ hs

/-! ### Creation and retirement (sections 1.5 and 1.6) -/

theorem census_retireSlot {r : Record} (h : s.record i = some r) :
    (retireSlot i s).census = s.census.retired i r.tag := by
  have hretired := retireSlot_spec s h
  have hcensus : (retireSlot i s).census = (((s.setSlot i _).withDirectory
      (s.directory.filter fun e => e ≠ ⟨r.tag, i⟩)).withFreeQueue (s.freeQueue ++ [i])).census :=
    census_congr hretired.freed hretired.zone rfl (congrArg State.deferred hretired.rest :) hretired.directory
      hretired.queue
  rw [hcensus, census_withFreeQueue, census_withDirectory, census_setSlot]
  rfl

theorem keepsParking_retireSlot (h : s.census.Unfrozen i) : KeepsParking s (retireSlot i s) := by
  intro hs
  cases hr : s.record i with
  | none => simpa only [retireSlot, hr] using hs
  | some r =>
    rw [census_retireSlot hr]
    exact hs.retired (census_identity hr) h

theorem keepsParking_createRecord (n : NewRecord) (s : State) : KeepsParking s (createRecord n s) := by
  intro hs
  cases hq : s.freeQueue with
  | nil => simpa only [createRecord, hq] using hs
  | cons i rest =>
    have hcreated := createRecord_spec s n hq
    set r := (n.fields s.timeBase).renewed (s.zone (zoneOf n.tag)).lease s.timeBase
    have hcensus : (createRecord n s).census = (((s.setRecord i r).withDirectory
        (createRecord n s).directory).withFreeQueue (createRecord n s).freeQueue).census :=
      census_congr hcreated.record hcreated.zone rfl (congrArg State.deferred hcreated.rest :) rfl rfl
    rw [hcensus, census_withFreeQueue, census_withDirectory, census_setRecord]
    refine hs.created hcreated.taken fun e he => ?_
    obtain ⟨below, above, hold, hnew, -⟩ := hcreated.directory
    rw [hnew] at he
    change e ∈ s.directory ∨ _
    rw [hold]
    simp only [List.mem_append, List.mem_cons] at he ⊢
    tauto

/-! ### The thaw (section 6.6) -/

/-- A pending age step leaves the census, or retires its record (R97). -/
theorem census_settlePending (s : State) (i : SlotIx) : (settlePending s i).census = s.census ∨
    ∃ x, s.census.identity i = some x ∧ (settlePending s i).census = s.census.retired i x.tag := by
  unfold settlePending
  split
  · exact .inl rfl
  · rename_i r hr
    split
    · exact .inl ((census_makeStale i).trans (census_setPendingAge i _))
    · exact .inr ⟨r.identity, census_identity hr, census_retireSlot hr⟩
    · exact .inl (census_setPendingAge i _)

/-- Pending age steps of records of unfrozen zones: each leaves the others in unfrozen zones. -/
theorem keepsParking_settlePendings (l : List SlotIx) : ∀ s : State, (∀ i ∈ l, s.census.Unfrozen i) →
    KeepsParking s (l.foldl settlePending s) := by
  induction l with
  | nil => exact fun s _ => .refl s
  | cons i l ih =>
    intro s h
    obtain ⟨hi, hl⟩ := List.forall_mem_cons.mp h
    rw [List.foldl_cons]
    rcases census_settlePending s i with he | ⟨x, hx, he⟩
    · exact (keepsParking_of_census he).trans (ih _ (by rwa [he]))
    · have hsettled : KeepsParking s (settlePending s i) := fun hs => he ▸ hs.retired hx hi
      refine hsettled.trans (ih _ fun j hj y hy => ?_)
      rw [he] at hy ⊢
      exact hl j hj y (Census.retired_identity_eq_some.mp hy).2

/-- The first two stages: the zone is unfrozen and its entries are out of the queue (R95, R96). -/
theorem census_applyParked_unfreeze (z : ZoneIx) (s : State) : (applyParked z (unfreeze z s)).census =
    { s.census with
      deferred := s.deferred.filter fun e => !s.deferredInZone z e
      frozen := Function.update s.census.frozen z false } := by
  have happlied : (applyParked z (unfreeze z s)).census =
      ((unfreeze z s).withDeferred (s.deferred.filter fun e => !s.deferredInZone z e)).census :=
    census_foldl (fun _ e => census_applyDeferred e) _ _
  rw [happlied, census_withDeferred, unfreeze, census_setZone]
  rfl

theorem keepsParking_thawZone (z : ZoneIx) (s : State) : KeepsParking s (thawZone z s) := by
  intro hs
  have hcensus := census_applyParked_unfreeze z s
  refine keepsParking_settlePendings _ _ (fun i hi => ?_) (hcensus ▸ hs.thaw List.filter_sublist fun e he x hx => ?_)
  · obtain ⟨r, hr, hp⟩ := mem_slotsWhere.mp hi
    obtain ⟨hz, -⟩ := Bool.and_eq_true_iff.mp hp
    have hthawed : (applyParked z (unfreeze z s)).frozen z = false :=
      (congrArg (fun c : Census => c.frozen z) hcensus).trans (Function.update_self ..)
    exact census_unfrozen hr (of_decide_eq_true hz ▸ hthawed)
  · obtain ⟨r, hr, rfl⟩ := census_identity_eq_some.mp hx
    have hout := (List.mem_filter.mp he).2
    simpa [State.deferredInZone, hr, Record.identity] using hout

/-! ### Requests from the bus (chapters 4 and 8) -/

/-- The slot for which a decision on a PUBLISH parks or supersedes an entry (R90, R91). -/
def PublishVerdict.parksAt : PublishVerdict → Option SlotIx
  | .park i => some i
  | .supersede i => some i
  | _ => none

theorem creationVerdict_parksAt (t : Tag) (w : List Byte) : (s.creationVerdict t w).parksAt = none := by
  unfold State.creationVerdict
  split_ifs <;> rfl

theorem freezeVerdict_parksAt {j : SlotIx} {t : Tag} (h : (s.freezeVerdict j t).parksAt = some i) : j = i := by
  unfold State.freezeVerdict at h
  split_ifs at h <;> cases h <;> rfl

/-- A present tag is parked at its own slot, behind the checks of producer and length (R54 to R56). -/
theorem updateVerdict_parksAt {n : Addr} {j : SlotIx} {r : Record} {t : Tag} {q : Byte} {w : List Byte}
    (h : (s.updateVerdict n j r t q w).parksAt = some i) : j = i ∧ r.producer = .node n ∧ w.length = r.length ∧
      s.freezeVerdict i t = s.updateVerdict n j r t q w := by
  unfold State.updateVerdict at h ⊢
  split at h
  · cases h
  rename_i hp
  split at h
  · cases h
  rename_i hlen
  rw [if_neg hp, if_neg hlen]
  have hfreeze (h : (s.freezeVerdict j t).parksAt = some i) :
      j = i ∧ r.producer = .node n ∧ w.length = r.length ∧ s.freezeVerdict i t = s.freezeVerdict j t := by
    obtain rfl := freezeVerdict_parksAt h
    exact ⟨rfl, not_not.mp hp, not_not.mp hlen, rfl⟩
  cases href : s.reference j r with
  | none =>
    rw [href] at h
    exact hfreeze h
  | some ref =>
    simp only [href] at h ⊢
    cases hclass : seqClass ref q with
    | duplicate | older => simp [hclass, PublishVerdict.parksAt] at h
    | newer =>
      rw [hclass] at h
      exact hfreeze h

/-- A PUBLISH that is parked finds a record of its node, under its tag and of its length (R54 to R56). -/
theorem publishVerdict_parksAt {n : Addr} {t : Tag} {q : Byte} {w : List Byte}
    (h : (s.publishVerdict n t q w).parksAt = some i) : ∃ r, s.lookup t = some i ∧ s.record i = some r ∧
      r.producer = .node n ∧ w.length = r.length ∧ s.freezeVerdict i t = s.publishVerdict n t q w := by
  unfold State.publishVerdict at h ⊢
  split_ifs at h ⊢
  · cases h
  · cases h
  cases hl : s.lookup t with
  | none => simp [hl, creationVerdict_parksAt] at h
  | some j =>
    simp only [hl] at h ⊢
    cases hr : s.record j with
    | none => simp [hr, PublishVerdict.parksAt] at h
    | some r =>
      simp only [hr] at h ⊢
      obtain ⟨rfl, hp, hlen, hv⟩ := updateVerdict_parksAt h
      exact ⟨r, rfl, hr, hp, hlen, hv⟩

theorem freezeVerdict_eq_park {t : Tag} (h : s.freezeVerdict i t = .park i) :
    s.frozen (zoneOf t) = true ∧ s.deferredOf i = none ∧ s.deferred.length < 32 := by
  unfold State.freezeVerdict at h
  split_ifs at h with hf hnone hroom
  exact ⟨hf, by simpa using hnone, Nat.lt_of_not_le hroom⟩

/-- Entries have their slots' incarnations, so a record without an entry of its own has none at all (R53, R89). -/
theorem ParkingSound.slot_ne_of_deferredOf (h : ParkingSound s.census) (hnone : s.deferredOf i = none) :
    ∀ e ∈ s.deferred, e.slot ≠ i := by
  rintro e he rfl
  obtain ⟨x, n, -, hinc, -⟩ := h.held e he
  have hother := List.find?_eq_none.mp hnone e he
  simp [show s.incarnation e.slot = e.incarnation from hinc] at hother

theorem census_parkEntry (q : Byte) (w : List Byte) : (parkEntry i q w s).census =
    { s.census with deferred := s.census.deferred ++ [⟨i, s.census.incarnation i, q, w⟩] } := rfl

theorem census_supersedeEntry (q : Byte) (w : List Byte) : (supersedeEntry i q w s).census =
    { s.census with
      deferred := s.census.deferred.map fun e =>
        if e.slot = i ∧ e.incarnation = s.census.incarnation i then { e with sequence := q, value := w } else e } :=
  rfl

/-- A decision on a PUBLISH is carried out behind its CONFIRM, which leaves the census (R57). -/
theorem ParkingSound.act {n : Addr} {t : Tag} {q : Byte} {w : List Byte} {d : PublishVerdict}
    (hs : ParkingSound s.census) (hd : s.publishVerdict n t q w = d) (hu : u.census = s.census) :
    ParkingSound (d.act n t q w u).census := by
  have hkept : ParkingSound u.census := hu ▸ hs
  cases d with
  | refuse c => exact hkept
  | create => exact keepsParking_createRecord _ u hkept
  | duplicate j => simpa [PublishVerdict.act] using hkept
  | old => exact hkept
  | supersede j =>
    obtain ⟨r, -, hr, -, hlen, -⟩ := publishVerdict_parksAt (i := j) (by rw [hd]; rfl)
    have hcensus : ((PublishVerdict.supersede j).act n t q w u).census = _ := census_renewAlone j
    rw [hcensus, census_supersedeEntry, hu]
    exact hs.superseded (census_identity hr) hlen
  | park j =>
    obtain ⟨r, hl, hr, hp, hlen, hv⟩ := publishVerdict_parksAt (i := j) (by rw [hd]; rfl)
    obtain ⟨hf, hnone, hroom⟩ := freezeVerdict_eq_park (hv.trans hd)
    have hcensus : ((PublishVerdict.park j).act n t q w u).census = _ := census_renewAlone j
    have htag : r.identity.tag = t := hs.tag_of_lookup hl hr
    rw [hcensus, census_parkEntry, hu]
    exact hs.parked hroom (hs.slot_ne_of_deferredOf hnone) (census_identity hr) (htag ▸ hf) hlen hp
  | apply j => simpa [PublishVerdict.act] using hkept

theorem keepsParking_doPublish (n : Addr) (t : Tag) (q fl : Byte) (w : List Byte) (s : State) :
    KeepsParking s (doPublish n t q fl w s) := by
  intro hs
  refine hs.act rfl ?_
  split <;> simp

theorem findRecord_eq_ok {t : Tag} {r : Record} (h : s.findRecord t = .ok (i, r)) :
    s.lookup t = some i ∧ s.record i = some r := by
  unfold State.findRecord at h
  split_ifs at h
  cases hl : s.lookup t with
  | none => simp [hl] at h
  | some j =>
    simp only [hl] at h
    cases hr : s.record j with
    | none => simp [hr] at h
    | some r' =>
      simp only [hr, Except.ok.injEq, Prod.mk.injEq] at h
      obtain ⟨rfl, rfl⟩ := h
      exact ⟨rfl, hr⟩

/-- A record found under a tag of an unfrozen zone (R25, R60, R65). -/
theorem ParkingSound.unfrozen_of_findRecord (h : ParkingSound s.census) {t : Tag} {r : Record}
    (hfind : s.findRecord t = .ok (i, r)) (hf : s.frozen (zoneOf t) = false) : s.census.Unfrozen i := by
  obtain ⟨hl, hr⟩ := findRecord_eq_ok hfind
  exact census_unfrozen hr (h.tag_of_lookup hl hr ▸ hf)

/-- A WITHDRAW retires a record of an unfrozen zone (R60). -/
theorem keepsParking_doWithdraw (n : Addr) (t : Tag) (q : Byte) (s : State) :
    KeepsParking s (doWithdraw n t q s) := by
  intro hs
  unfold doWithdraw
  split
  · simpa using hs
  · rename_i i hverdict
    unfold State.withdrawVerdict at hverdict
    split at hverdict
    · cases hverdict
    · rename_i j r hfind
      split_ifs at hverdict with hp hf
      obtain rfl : j = i := Except.ok.inj hverdict
      have hconfirm : (confirm n t q .ok s).census = s.census := census_confirm n t q .ok
      have hi := hs.unfrozen_of_findRecord hfind (by simpa using hf)
      exact keepsParking_retireSlot (hconfirm ▸ hi) (hconfirm ▸ hs)

theorem keepsParking_dispatchFrame (f : Frame) (s : State) : KeepsParking s (dispatchFrame f s) := by
  unfold dispatchFrame
  split
  · exact keepsParking_doPublish _ _ _ _ _ s
  · exact keepsParking_of_census (census_doQuery _ _ _)
  · exact keepsParking_doWithdraw _ _ _ s
  · exact keepsParking_of_census (census_doSubscribe _ _ _)
  · exact keepsParking_of_census (census_doUnsubscribe _ _ _)
  · exact .refl s

theorem keepsParking_receive (y : Option Frame) (s : State) : KeepsParking s (receive y s) := by
  unfold receive
  split
  · exact .refl s
  split
  · exact .refl s
  · exact .refl s
  · exact keepsParking_dispatchFrame _ (s.count .rxGood)

/-! ### Readings of the line (section 8.1) -/

theorem keepsParking_closeFrame (n : Nat) (y : Option Frame) (s : State) : KeepsParking s (closeFrame n y s) := by
  unfold closeFrame
  exact (keepsParking_of_census (census_withPort _)).trans (keepsParking_receive y _)

theorem keepsParking_passQuiet (n : Nat) (s : State) : KeepsParking s (passQuiet n s) := by
  unfold passQuiet
  split
  · exact .refl s
  · exact .refl s
  · exact keepsParking_closeFrame 0 _ s

theorem keepsParking_readLine (s : State) (r : Reading) : KeepsParking s (readLine s r) := by
  cases r with
  | zero | one => exact .refl s
  | quiet => exact keepsParking_passQuiet 1 s

theorem KeepsParking.foldl {α : Type} {f : State → α → State} (h : ∀ s a, KeepsParking s (f s a))
    (l : List α) : ∀ s, KeepsParking s (l.foldl f s) := by
  induction l with
  | nil => exact KeepsParking.refl
  | cons a l ih => exact fun s => (h s a).trans (ih _)

theorem keepsParking_takeLate (l : List (Option Frame)) (s : State) : KeepsParking s (takeLate l s) :=
  .foldl (fun s y => keepsParking_receive y s) l s

theorem keepsParking_passFrame (f : Frame) (s : State) : KeepsParking s (passFrame f s) := by
  unfold passFrame
  split_ifs
  · exact (keepsParking_passQuiet _ s).trans (keepsParking_closeFrame _ _ _)
  · exact keepsParking_takeLate _ s
  · exact .refl s

theorem keepsParking_quiet (n : Nat) (s : State) : KeepsParking s (if s.listens then passQuiet n s else s) := by
  split_ifs
  · exact keepsParking_passQuiet n s
  · exact .refl s

theorem keepsParking_seeReading (r : Reading) (s : State) : KeepsParking s (seeReading r s) := by
  unfold seeReading
  split_ifs
  · exact keepsParking_readLine s r
  · exact .refl s

/-! ## Every command, and the part's own turn -/

/-- A command answers a next state, with the census kept sound. -/
def AnswersParked (s : State) (o : Host.Outcome State Fault Refusal) : Prop := ∃ u, o = .next u ∧ KeepsParking s u

theorem answersParked_next (h : KeepsParking s u) : AnswersParked s (.next u) := ⟨u, rfl, h⟩

theorem answersParked_of_census (h : u.census = s.census) : AnswersParked s (.next u) :=
  answersParked_next (keepsParking_of_census h)

theorem execReset_parked (a : Addr) (rate : BitVec 2) (s : State) : AnswersParked s (execReset a rate s) := by
  have hqueue : (State.powerOn ⟨a, rate⟩).freeQueue.Nodup := by simp [State.powerOn, List.nodup_finRange]
  have hfree : ∀ i, (State.powerOn ⟨a, rate⟩).record i = none := fun i => by
    simp [State.record, State.slot, State.powerOn, Slot.reset]
  have hon : ParkingSound (State.powerOn ⟨a, rate⟩).census := parkingSound_of_free rfl rfl hqueue hfree
  exact answersParked_next fun _ => by rwa [census_withChoices, census_withPending]

theorem execLeaseExpiry_parked (i : SlotIx) (s : State) : AnswersParked s (execLeaseExpiry i s) := by
  refine answersParked_of_census ?_
  split
  · rfl
  · split_ifs
    · exact census_leaseExpired i _
    · rfl

/-- A grace expiry retires a record of an unfrozen zone alone (R79). -/
theorem execGraceExpiry_parked (i : SlotIx) (s : State) : AnswersParked s (execGraceExpiry i s) := by
  refine answersParked_next ?_
  split
  · exact .refl s
  · rename_i r hr
    split_ifs
    · simp only [graceExpired]
      split_ifs with hf
      · exact keepsParking_of_census ((census_setPendingAge ..).trans (census_dropGrace i))
      · have hdrop : (dropGrace i s).census = s.census := census_dropGrace i
        have hi : s.census.Unfrozen i := census_unfrozen hr (by simpa using hf)
        exact (keepsParking_of_census hdrop).trans (keepsParking_retireSlot (hdrop ▸ hi))
    · exact .refl s

theorem execFreezeLimitExpiry_parked (z : ZoneIx) (s : State) : AnswersParked s (execFreezeLimitExpiry z s) := by
  refine answersParked_next ?_
  split_ifs
  · exact keepsParking_thawZone z s
  · exact .refl s

theorem execFrameDropped_parked (rs : List Reading) (s : State) : AnswersParked s (execFrameDropped rs s) := by
  refine answersParked_next ?_
  split_ifs
  · exact .foldl keepsParking_readLine rs s
  · exact keepsParking_takeLate _ s
  · exact .refl s

theorem execAttemptSent_parked (s : State) : AnswersParked s (execAttemptSent s) := by
  refine answersParked_of_census ?_
  split
  · rfl
  · exact census_endAttempt

theorem execAttemptLost_parked (k : Nat) (s : State) : AnswersParked s (execAttemptLost k s) := by
  refine answersParked_next ?_
  split
  · exact .refl s
  · rename_i f _
    split_ifs
    · have hended : (loseAttempt (leaveLine (f.bits.take k) s)).census = s.census := census_loseAttempt
      exact (keepsParking_of_census hended).trans (keepsParking_seeReading _ _)
    · exact .refl s

theorem execAttemptFault_parked (k : Nat) (r : Reading) (s : State) : AnswersParked s (execAttemptFault k r s) := by
  refine answersParked_next ?_
  split
  · exact .refl s
  · rename_i f _
    split_ifs
    · have hended : (faultAttempt (leaveLine (f.bits.take k) s)).census = s.census := census_faultAttempt
      exact (keepsParking_of_census hended).trans (keepsParking_seeReading _ _)
    · exact .refl s

theorem execCmdData_parked (w : Word) (s : State) : AnswersParked s (execCmdData w s) := by
  refine answersParked_of_census ?_
  split_ifs <;> rfl

theorem execCmdSubmit_parked (w : Word) (s : State) : AnswersParked s (execCmdSubmit w s) := by
  refine answersParked_of_census ?_
  split_ifs <;> rfl

theorem execCplPop_parked (w : Word) (s : State) : AnswersParked s (execCplPop w s) := by
  refine answersParked_of_census ?_
  split <;> rfl

theorem execBadCommand_parked (s : State) : AnswersParked s (execBadCommand s) := by
  refine answersParked_of_census ?_
  split
  · rfl
  · split_ifs <;> rfl

/-- A host command keeps the census sound when its decision does. -/
theorem takeCommand_parked {k : HostKind} {f : Block → State → OutcomeCode × List Word × State}
    (h : ∀ b, KeepsParking s (f b s).2.2) : AnswersParked s (.next (takeCommand k f s)) := by
  refine answersParked_next ?_
  unfold takeCommand
  split
  · exact .refl s
  · split_ifs
    · exact h _
    · exact .refl s

theorem takeCommand_parked_of_census {k : HostKind} {f : Block → State → OutcomeCode × List Word × State}
    (h : ∀ b, (f b s).2.2.census = s.census) : AnswersParked s (.next (takeCommand k f s)) :=
  takeCommand_parked fun b => keepsParking_of_census (h b)

theorem keepsParking_decideCreate (b : Block) (s : State) : KeepsParking s (decideCreate b s).2.2 := by
  unfold decideCreate
  split
  · exact keepsParking_createRecord _ s
  · exact .refl s

/-- RETIRE retires a record of an unfrozen zone (R65). -/
theorem keepsParking_decideRetire (b : Block) (s : State) : KeepsParking s (decideRetire b s).2.2 := by
  unfold decideRetire
  split
  · exact .refl s
  · rename_i i r hfind
    split_ifs with hf
    · exact .refl s
    · exact fun hs => keepsParking_retireSlot (hs.unfrozen_of_findRecord hfind (by simpa using hf)) hs

theorem keepsParking_decideFreeze (b : Block) (s : State) : KeepsParking s (decideFreeze b s).2.2 := by
  unfold decideFreeze
  split
  · exact .refl s
  · rename_i z _
    split_ifs
    · exact .refl s
    · exact .refl s
    · exact fun hs => (census_setZone (s := s) z _).symm ▸ hs.freeze z

theorem keepsParking_decideThaw (b : Block) (s : State) : KeepsParking s (decideThaw b s).2.2 := by
  unfold decideThaw
  split
  · exact .refl s
  · split_ifs
    · exact keepsParking_thawZone _ s
    · exact .refl s

/-- CLEAR_TABLE leaves no record (R19). -/
theorem record_clearTable (s : State) (i : SlotIx) : (clearTable s).record i = none := by
  have hslot : (clearTable s).record i = (Slot.cleared (s.slot i)).record := by
    simp [clearTable, State.record, State.slot, mapVector]
  rw [hslot, Slot.cleared]
  split
  · rfl
  · rename_i h
    exact h

theorem keepsParking_clearTable (s : State) : KeepsParking s (clearTable s) := by
  have hqueue : (clearTable s).freeQueue.Nodup := by simp [clearTable, List.nodup_finRange]
  exact fun _ => parkingSound_of_free rfl rfl hqueue (record_clearTable s)

theorem execBusStop_parked (s : State) : AnswersParked s (execBusStop s) := by
  unfold execBusStop
  split_ifs
  · refine answersParked_of_census ?_
    split
    · rfl
    · split_ifs <;> rfl
  · exact takeCommand_parked_of_census census_decideBusStop

theorem exec_parked (c : Instr) (s : State) : AnswersParked s (exec c s) := by
  cases c with
  | reset a rate => exact execReset_parked a rate s
  | leaseExpiry i => exact execLeaseExpiry_parked i s
  | graceExpiry i => exact execGraceExpiry_parked i s
  | freezeLimitExpiry z => exact execFreezeLimitExpiry_parked z s
  | frameDropped rs => exact execFrameDropped_parked rs s
  | publish | withdraw | subscribe | unsubscribe | query => exact answersParked_next (keepsParking_passFrame _ s)
  | busOnline n => exact answersParked_next (keepsParking_quiet n s)
  | attemptStart n =>
    exact answersParked_next ((keepsParking_quiet n s).trans (keepsParking_of_census census_tryAttempt))
  | attemptSent => exact execAttemptSent_parked s
  | attemptLost k => exact execAttemptLost_parked k s
  | attemptFault k r => exact execAttemptFault_parked k r s
  | cmdData w => exact execCmdData_parked w s
  | cmdSubmit w => exact execCmdSubmit_parked w s
  | cplData | intStatus | intEnable | maintMailbox | ignoredWrite => exact answersParked_next (.refl s)
  | cplPop w => exact execCplPop_parked w s
  | badCommand => exact execBadCommand_parked s
  | create => exact takeCommand_parked (keepsParking_decideCreate · s)
  | retire => exact takeCommand_parked (keepsParking_decideRetire · s)
  | write => exact takeCommand_parked_of_census census_decideWrite
  | force => exact takeCommand_parked_of_census census_decideForce
  | unforce => exact takeCommand_parked_of_census census_decideUnforce
  | read => exact takeCommand_parked_of_census census_decideRead
  | list => exact takeCommand_parked_of_census census_decideList
  | setZone => exact takeCommand_parked_of_census census_decideSetZone
  | zoneStatus => exact takeCommand_parked_of_census census_decideZoneStatus
  | freeze => exact takeCommand_parked (keepsParking_decideFreeze · s)
  | thaw => exact takeCommand_parked (keepsParking_decideThaw · s)
  | setDevice => exact takeCommand_parked_of_census census_decideSetDevice
  | busStart => exact takeCommand_parked_of_census census_decideBusStart
  | busStop => exact execBusStop_parked s
  | clearTable => exact takeCommand_parked fun _ => keepsParking_clearTable s
  | counters => exact takeCommand_parked_of_census census_decideCounters
  | setMaintMode => exact takeCommand_parked_of_census census_decideSetMaintMode
  | noRequest | unknownRequestCode | nop | peek | peekZone | watch | attention | poke | pokeDataFrame | pokeReadBack
  | pokeEnd => exact answersParked_of_census (census_clockFrame _)
  | frameTimeout =>
    refine answersParked_of_census ?_
    split_ifs <;> rfl
  | alignmentRecovery | mclkRisingEdge => exact answersParked_of_census (census_clockEdge _)

/-- The part's own turn moves time base, line and waiting commands alone. -/
theorem census_ownTurn (s : State) : s.ownTurn.census = s.census := by
  unfold State.ownTurn
  split
  · split_ifs <;> rfl
  · rfl

/-- Settles O8: the command at the front keeps the census sound, and the part's own turn leaves it. -/
theorem stepKeepsTheDeferredQueueSound : Obligations.StepKeepsTheDeferredQueueSound := by
  intro s t htable hdeferred hstep
  have hs : ParkingSound s.census := parkingSound_of_sound htable hdeferred
  unfold step at hstep
  split at hstep
  · rename_i c rest _
    obtain ⟨u, hu, hkeeps⟩ := exec_parked c (s.withPending rest)
    obtain rfl : u = t := Host.Outcome.next.inj (hu.symm.trans hstep)
    exact (hkeeps hs).deferredSound
  · obtain rfl : s.ownTurn = t := Host.Outcome.next.inj hstep
    exact (keepsParking_of_census (census_ownTurn s) hs).deferredSound

end Sys2Proof.Machine
end

section
/-! PROOF. The bits of a frame: each field stands in its place, the frame is read back from them, and the check finds
any single wrong bit (section 8.2, R118, R119). -/

namespace Sys2Proof.Machine

variable {f : Frame} {l : List Bool} {b : Bool} {i k w : Nat} {x : BitVec w}

/-! ## Fields in their places -/

/-- The bits of `x` stand in `l` from place `i` on. -/
def StandsAt (l : List Bool) (i : Nat) {w : Nat} (x : BitVec w) : Prop :=
  ∃ a c, l = a ++ (bitsOf x ++ c) ∧ a.length = i

theorem bitsOf_getElem? (hk : k < w) : (bitsOf x)[k]? = some (x.getMsbD k) := by
  simp [bitsOf, hk]

theorem StandsAt.getElem? (h : StandsAt l i x) (hk : k < w) : l[i + k]? = some (x.getMsbD k) := by
  obtain ⟨a, c, rfl, rfl⟩ := h
  rw [List.getElem?_append_right (Nat.le_add_right _ _), Nat.add_sub_cancel_left,
    List.getElem?_append_left (by rwa [bitsOf_length]), bitsOf_getElem? hk]

theorem StandsAt.fieldAt_eq (h : StandsAt l i x) : fieldAt l i w = x := by
  obtain ⟨a, c, rfl, ha⟩ := h
  exact fieldAt_bitsOf a x c i ha

theorem flatMap_bitsOf_length (p : List Byte) : (p.flatMap bitsOf).length = 8 * p.length := by
  simp [List.length_flatMap, Nat.mul_comm]

/-- Byte `j` of a payload stands behind the `j` bytes before it. -/
theorem standsAt_payload {p : List Byte} {j : Nat} {y : Byte} (hy : p[j]? = some y) (a c : List Bool) :
    StandsAt (a ++ (p.flatMap bitsOf ++ c)) (a.length + 8 * j) y := by
  obtain ⟨hj, rfl⟩ := List.getElem?_eq_some_iff.mp hy
  refine ⟨a ++ (p.take j).flatMap bitsOf, (p.drop (j + 1)).flatMap bitsOf ++ c, ?_, ?_⟩
  · have hp : p.flatMap bitsOf = (p.take j ++ p[j] :: p.drop (j + 1)).flatMap bitsOf := by
      rw [← List.drop_eq_getElem_cons hj, List.take_append_drop]
    simp only [hp, List.flatMap_append, List.flatMap_cons, List.append_assoc]
  · rw [List.length_append, flatMap_bitsOf_length, List.length_take, Nat.min_eq_left hj.le]

/-- The bits of a frame ahead of its length field (section 8.2). -/
def Frame.headerBits (f : Frame) : List Bool :=
  bitsOf f.destination ++ bitsOf f.source ++ bitsOf f.kind ++ bitsOf f.tag ++ bitsOf f.sequence ++ bitsOf f.flags ++
    bitsOf f.code

theorem Frame.headerBits_length (f : Frame) : f.headerBits.length = 64 := by
  simp [Frame.headerBits]

theorem Frame.bits_eq (f : Frame) : f.bits = (f.headerBits ++ bitsOf (BitVec.ofNat 4 f.payload.length)) ++
    (f.payload.flatMap bitsOf ++ bitsOf (crcOf f.bodyBits)) := by
  simp [Frame.bits, Frame.bodyBits, Frame.headerBits]

/-- The fields of a frame stand where section 8.2 has them. -/
theorem Frame.bits_standsAt (f : Frame) : StandsAt f.bits 0 f.destination ∧ StandsAt f.bits 6 f.source ∧
    StandsAt f.bits 12 f.kind ∧ StandsAt f.bits 16 f.tag ∧ StandsAt f.bits 40 f.sequence ∧ StandsAt f.bits 48 f.flags ∧
    StandsAt f.bits 56 f.code ∧ StandsAt f.bits 64 (BitVec.ofNat 4 f.payload.length) := by
  have hbits := f.bits_eq
  simp only [Frame.headerBits, List.append_assoc] at hbits
  refine ⟨⟨[], _, hbits, rfl⟩, ⟨bitsOf f.destination, _, hbits, by simp⟩,
    ⟨bitsOf f.destination ++ bitsOf f.source, _, by simpa using hbits, by simp⟩,
    ⟨bitsOf f.destination ++ bitsOf f.source ++ bitsOf f.kind, _, by simpa using hbits, by simp⟩,
    ⟨bitsOf f.destination ++ bitsOf f.source ++ bitsOf f.kind ++ bitsOf f.tag, _, by simpa using hbits, by simp⟩,
    ⟨bitsOf f.destination ++ bitsOf f.source ++ bitsOf f.kind ++ bitsOf f.tag ++ bitsOf f.sequence, _,
      by simpa using hbits, by simp⟩,
    ⟨bitsOf f.destination ++ bitsOf f.source ++ bitsOf f.kind ++ bitsOf f.tag ++ bitsOf f.sequence ++ bitsOf f.flags, _,
      by simpa using hbits, by simp⟩,
    ⟨f.headerBits, _, by simpa [Frame.headerBits] using hbits, f.headerBits_length⟩⟩

/-- The payload stands behind the length field. -/
theorem Frame.bits_payload_standsAt {j : Nat} {y : Byte} (hy : f.payload[j]? = some y) :
    StandsAt f.bits (68 + 8 * j) y := by
  have h := standsAt_payload hy (f.headerBits ++ bitsOf (BitVec.ofNat 4 f.payload.length)) (bitsOf (crcOf f.bodyBits))
  rwa [← f.bits_eq, List.length_append, f.headerBits_length, bitsOf_length] at h

theorem Frame.bits_take_body (f : Frame) : f.bits.take (68 + 8 * f.payload.length) = f.bodyBits :=
  List.take_left' f.bodyBits_length

/-- The check stands last (R119). -/
theorem Frame.bits_check_standsAt (f : Frame) : StandsAt f.bits (68 + 8 * f.payload.length) (crcOf f.bodyBits) :=
  ⟨f.bodyBits, [], by rw [List.append_nil, Frame.bits], f.bodyBits_length⟩

theorem Frame.bits_payloadAt (f : Frame) : payloadAt f.bits 68 f.payload.length = f.payload := by
  rw [f.bits_eq]
  exact payloadAt_flatMap _ _ _ _ (by rw [List.length_append, f.headerBits_length, bitsOf_length])

/-- A frame is read back from its bits (R118, R119). -/
theorem parseFrame_bits (h : f.payload.length ≤ 8) : parseFrame f.bits = some f := by
  obtain ⟨hdst, hsrc, hkind, htag, hseq, hflags, hcode, hlen⟩ := f.bits_standsAt
  have hn : (fieldAt f.bits 64 4).toNat = f.payload.length := by
    rw [hlen.fieldAt_eq, BitVec.toNat_ofNat, Nat.mod_eq_of_lt (by omega)]
  have hcheck : crcOf (f.bits.take (68 + 8 * f.payload.length)) = fieldAt f.bits (68 + 8 * f.payload.length) 16 := by
    rw [f.bits_take_body, f.bits_check_standsAt.fieldAt_eq]
  simp only [parseFrame, hn]
  rw [if_pos ⟨h, f.bits_length, hcheck⟩, hdst.fieldAt_eq, hsrc.fieldAt_eq, hkind.fieldAt_eq, htag.fieldAt_eq,
    hseq.fieldAt_eq, hflags.fieldAt_eq, hcode.fieldAt_eq, f.bits_payloadAt]

/-! ## The check register (R119) -/

theorem crcOf_concat (l : List Bool) (b : Bool) : crcOf (l ++ [b]) = crcStep (crcOf l) b := by
  rw [crcOf, List.foldl_append]
  rfl

/-- The polynomial x^16 + x^12 + x^5 + 1, but for its highest power, bit by bit. -/
theorem polynomial_getLsbD : ∀ k < 16, (0x1021#16).getLsbD k = decide (k = 0 ∨ k = 5 ∨ k = 12) := by
  decide

/-- The register is shifted, and the polynomial is added when the top bit and the bit taken differ. -/
theorem crcStep_getLsbD (r : BitVec 16) (b : Bool) (hk : k < 16) : (crcStep r b).getLsbD k =
    ((decide (0 < k) && r.getLsbD (k - 1)) ^^ (decide (k = 0 ∨ k = 5 ∨ k = 12) && (r.getLsbD 15 ^^ b))) := by
  have hshift : (r <<< 1).getLsbD k = (decide (0 < k) && r.getLsbD (k - 1)) := by
    rw [BitVec.getLsbD_shiftLeft]
    cases k <;> simp [hk]
  have htop : r.msb = r.getLsbD 15 := BitVec.msb_eq_getLsbD_last r
  unfold crcStep
  rw [htop]
  cases hadd : r.getLsbD 15 ^^ b
  · simp [hshift]
  · simp [hshift, polynomial_getLsbD k hk]

/-- Settles O20: the fields by their places, the frame by reading them, the register by one step of it. -/
theorem frameBitsReadBack : Obligations.FrameBitsReadBack := by
  refine ⟨fun f hf => ?_, rfl, fun l b k hk => ?_⟩
  · obtain ⟨hdst, hsrc, hkind, htag, hseq, hflags, hcode, hlen⟩ := f.bits_standsAt
    refine ⟨f.bits_length, parseFrame_bits hf, fun k hk => ?_, fun _ => hsrc.getElem?, fun _ => hkind.getElem?,
      fun _ => htag.getElem?, fun _ => hseq.getElem?, fun _ => hflags.getElem?, fun _ => hcode.getElem?,
      fun _ => hlen.getElem?, fun j y hy k hk => (Frame.bits_payload_standsAt hy).getElem? hk, fun k hk => ?_⟩
    · simpa using hdst.getElem? hk
    · rw [f.bits_take_body]
      exact f.bits_check_standsAt.getElem? hk
  · rw [crcOf_concat, crcStep_getLsbD _ b hk]

/-! ## A single wrong bit -/

theorem natOfBits_singleton (b : Bool) : natOfBits [b] = b.toNat := by
  cases b <;> rfl

theorem natOfBits_lt (l : List Bool) : natOfBits l < 2 ^ l.length := by
  induction l using List.reverseRecOn with
  | nil => exact Nat.one_pos
  | append_singleton l b ih =>
    have hb : b.toNat < 2 := Bool.toNat_lt b
    simp only [natOfBits_append, natOfBits_singleton, List.length_append, List.length_singleton, pow_succ]
    omega

/-- Bits of one count that spell one number are the same bits. -/
theorem natOfBits_injective : ∀ {l m : List Bool}, l.length = m.length → natOfBits l = natOfBits m → l = m
  | [], [], _, _ => rfl
  | b :: l, d :: m, hlen, hnum => by
    have hlen' : l.length = m.length := Nat.succ.inj hlen
    have hl := natOfBits_lt l
    have hm := natOfBits_lt m
    rw [← List.singleton_append, natOfBits_append, ← List.singleton_append (l := m), natOfBits_append, hlen'] at hnum
    rw [hlen'] at hl
    have hbd : b = d := by
      cases b <;> cases d <;> simp only [natOfBits_singleton, Bool.toNat_true, Bool.toNat_false] at hnum ⊢ <;> omega
    subst hbd
    rw [natOfBits_injective hlen' (Nat.add_left_cancel hnum)]

/-- The bits of a field can be told from its value. -/
theorem take_drop_eq_of_fieldAt {m : List Bool} {n : Nat} (hl : i + n ≤ l.length) (hm : i + n ≤ m.length)
    (h : fieldAt l i n = fieldAt m i n) : (l.drop i).take n = (m.drop i).take n := by
  have hlen : ∀ {u : List Bool}, i + n ≤ u.length → ((u.drop i).take n).length = n := fun hu => by
    rw [List.length_take, List.length_drop]
    omega
  have hlt : ∀ {u : List Bool}, i + n ≤ u.length → natOfBits ((u.drop i).take n) < 2 ^ n := fun {u} hu => by
    have := natOfBits_lt ((u.drop i).take n)
    rwa [hlen hu] at this
  refine natOfBits_injective ((hlen hl).trans (hlen hm).symm) ?_
  have hnat := congrArg BitVec.toNat h
  rwa [fieldAt, fieldAt, BitVec.toNat_ofNat, BitVec.toNat_ofNat, Nat.mod_eq_of_lt (hlt hl),
    Nat.mod_eq_of_lt (hlt hm)] at hnat

theorem crcStep_ne_not (r : BitVec 16) (b : Bool) : crcStep r b ≠ crcStep r (!b) := by
  intro h
  have hbit : (crcStep r b).getLsbD 0 = (crcStep r (!b)).getLsbD 0 := congrArg (BitVec.getLsbD · 0) h
  rw [crcStep_getLsbD r b (by decide), crcStep_getLsbD r (!b) (by decide)] at hbit
  simp at hbit

theorem foldl_crcStep_injective (l : List Bool) : ∀ {r q : BitVec 16},
    l.foldl crcStep r = l.foldl crcStep q → r = q := by
  induction l with
  | nil => exact id
  | cons b l ih => exact fun h => crcStep_injective b (ih h)

/-- The check finds a single wrong bit among those that it covers. -/
theorem crcOf_set_ne (h : l[k]? = some b) : crcOf (l.set k (!b)) ≠ crcOf l := by
  obtain ⟨hk, rfl⟩ := List.getElem?_eq_some_iff.mp h
  have hl : l = l.take k ++ l[k] :: l.drop (k + 1) := by
    rw [← List.drop_eq_getElem_cons hk, List.take_append_drop]
  rw [List.set_eq_take_append_cons_drop, if_pos hk]
  conv_rhs => rw [hl]
  intro heq
  simp only [crcOf, List.foldl_append, List.foldl_cons] at heq
  exact crcStep_ne_not _ _ (foldl_crcStep_injective _ heq).symm

/-- Bits of a frame's count that are a frame carry the check of the others, whatever their length field. -/
theorem check_of_parseFrame {g : Frame} (h : parseFrame l = some g) {n : Nat} (hlen : l.length = 84 + 8 * n) :
    crcOf (l.take (68 + 8 * n)) = fieldAt l (68 + 8 * n) 16 := by
  simp only [parseFrame] at h
  split_ifs at h with hcheck
  obtain ⟨-, hcount, hcrc⟩ := hcheck
  obtain rfl : n = (fieldAt l 64 4).toNat := by omega
  exact hcrc

/-- Settles O21: a wrong bit ahead of the check makes the check of the bits another, a wrong bit in the check makes the
check read another. -/
theorem singleBitErrorsAreDropped : Obligations.SingleBitErrorsAreDropped := by
  intro f k b hf hb
  obtain ⟨hk, -⟩ := List.getElem?_eq_some_iff.mp hb
  have hlen : f.bits.length = 84 + 8 * f.payload.length := f.bits_length
  have hlen' : (f.bits.set k (!b)).length = 84 + 8 * f.payload.length := by rw [List.length_set, hlen]
  have hright := check_of_parseFrame (parseFrame_bits hf) hlen
  refine Option.eq_none_iff_forall_ne_some.mpr fun g hg => ?_
  have hwrong := check_of_parseFrame hg hlen'
  by_cases hbody : k < 68 + 8 * f.payload.length
  · have hsame : fieldAt (f.bits.set k (!b)) (68 + 8 * f.payload.length) 16 =
        fieldAt f.bits (68 + 8 * f.payload.length) 16 := by
      rw [fieldAt, fieldAt, List.drop_set_of_lt hbody]
    rw [hsame, ← hright, List.take_set] at hwrong
    exact crcOf_set_ne (by rwa [List.getElem?_take_of_lt hbody]) hwrong
  · rw [List.take_set_of_le (Nat.le_of_not_lt hbody), hright] at hwrong
    have hbits := take_drop_eq_of_fieldAt (by omega) (by omega) hwrong
    have hat := congrArg (·[k - (68 + 8 * f.payload.length)]?) hbits
    have hin : k - (68 + 8 * f.payload.length) < 16 := by omega
    have hplace : 68 + 8 * f.payload.length + (k - (68 + 8 * f.payload.length)) = k := by omega
    simp only [List.getElem?_take_of_lt hin, List.getElem?_drop, hplace, List.getElem?_set_self hk, hb,
      Option.some.injEq] at hat
    cases b <;> cases hat

end Sys2Proof.Machine
end

section
/-! PROOF. The host queues over every step (R134, R152 to R156, R168): what they are sound by, the rows that leave it,
and the rows that submit, take and complete a command. -/

namespace Sys2Proof.Machine

variable {s u v : State} {b : Block} {n : Nat}

/-! ## What the soundness of the host queues speaks of -/

/-- The part of the state that `HostSound` speaks of. -/
structure HostQueues where
  stagingPointer : Nat
  commands : List Block
  executing : Bool
  reserved : Nat
  completions : List (Vector Word 8)
  readPointer : Fin 8
  portState : PortState
  stopPending : Bool
  attempting : Bool

def State.hostQueues (s : State) : HostQueues :=
  ⟨s.host.stagingPointer, s.host.commands, s.host.executing, s.host.reserved, s.host.completions, s.host.readPointer,
    s.port.state, s.port.stopPending, s.transmitter.isSome⟩

theorem HostSound.congr (h : HostSound s) (hqueues : u.hostQueues = s.hostQueues) : HostSound u := by
  obtain ⟨pointer, commands, completions, emptyPointer, reserved, stopping, underway⟩ := h
  simp only [State.hostQueues, HostQueues.mk.injEq] at hqueues
  obtain ⟨e1, e2, e3, e4, e5, e6, e7, e8, e9⟩ := hqueues
  constructor <;> simpa only [e1, e2, e3, e4, e5, e6, e7, e8, e9]

/-- Without a stop pending, the host queues are sound by the host unit alone. -/
theorem HostSound.of_going (h : HostSound s) (hstop : s.port.stopPending = false) (hhost : u.host = s.host)
    (hstop' : u.port.stopPending = false) : HostSound u := by
  obtain ⟨pointer, commands, completions, emptyPointer, reserved, stopping, -⟩ := h
  rw [← hhost] at pointer commands completions emptyPointer reserved
  refine ⟨pointer, commands, completions, emptyPointer, reserved, ?_, ?_⟩
  · rw [hhost, stopping, hstop, hstop']
  · simp [hstop']

/-- A command that finds the entries of its record free completes (R154 to R156). -/
theorem HostSound.completeCommand (h : HostSound s) (hhost : u.host = s.host) (hstop : u.port.stopPending = false)
    (hn : n = 1 ∨ n = 2) (hfit : s.host.completions.length + n ≤ 8) (b : Block) (c : OutcomeCode) (ws : List Word) :
    HostSound (completeCommand b n c ws u) := by
  have hlen : (completionRecord b n c ws).length = n := completionRecord_length hn b c ws
  have hpointer := h.pointer
  have hcommands := h.commands
  rw [← hhost] at hpointer hcommands hfit
  have htail : u.host.commands.tail.length ≤ 4 := by
    rw [List.length_tail]
    omega
  refine ⟨hpointer, htail, ?_, fun hnil => ?_, rfl, hstop.symm, fun hpending => ?_⟩
  · simpa [Machine.completeCommand, hlen] using hfit
  · have hrecord : completionRecord b n c ws = [] := (List.append_eq_nil_iff.mp hnil).2
    rw [hrecord] at hlen
    rcases hn with rfl | rfl <;> cases hlen
  · exact absurd (hstop.symm.trans hpending) (by decide)

/-- From `s` to `u` the host queues stay sound. -/
def KeepsHost (s u : State) : Prop := HostSound s → HostSound u

theorem KeepsHost.refl (s : State) : KeepsHost s s := id

theorem KeepsHost.trans (h : KeepsHost s u) (g : KeepsHost u v) : KeepsHost s v := g ∘ h

theorem keepsHost_of_queues (h : u.hostQueues = s.hostQueues) : KeepsHost s u := fun hs => hs.congr h

theorem hostQueues_of_outer (h : u.outer = s.outer) : u.hostQueues = s.hostQueues := by
  simp only [State.hostQueues, show u.host = s.host from congrArg Outer.host h,
    show u.port = s.port from congrArg Outer.port h,
    show u.transmitter = s.transmitter from congrArg Outer.transmitter h]

theorem keepsHost_of_outer (h : u.outer = s.outer) : KeepsHost s u := keepsHost_of_queues (hostQueues_of_outer h)

/-- A command answers a next state, with the host queues kept sound. -/
def AnswersHost (s : State) (o : Host.Outcome State Fault Refusal) : Prop := ∃ u, o = .next u ∧ KeepsHost s u

theorem answersHost_next (h : KeepsHost s u) : AnswersHost s (.next u) := ⟨u, rfl, h⟩

theorem answersHost_of_queues (h : u.hostQueues = s.hostQueues) : AnswersHost s (.next u) :=
  answersHost_next (keepsHost_of_queues h)

/-! ## Readings of the line (section 8.1) -/

theorem host_receive (x : Option Frame) (s : State) : (receive x s).host = s.host :=
  congrArg Outer.host (outer_receive x)

theorem host_passQuiet (n : Nat) (s : State) : (passQuiet n s).host = s.host := by
  unfold passQuiet
  split
  · rfl
  · rfl
  · exact host_receive _ _

theorem host_readLine (s : State) (r : Reading) : (readLine s r).host = s.host := by
  cases r with
  | zero => rfl
  | one => rfl
  | quiet => exact host_passQuiet 1 s

theorem host_readings (rs : List Reading) : ∀ s : State, (rs.foldl readLine s).host = s.host := by
  induction rs with
  | nil => exact fun _ => rfl
  | cons r rs ih => exact fun s => (ih _).trans (host_readLine s r)

/-- A port that listens has no stop pending, and goes on listening. -/
theorem keepsHost_of_listens (hlistens : s.listens = true) (h : ListensOn s u) (hhost : u.host = s.host) :
    KeepsHost s u := fun hs =>
  hs.of_going (State.listens_iff.mp hlistens).2.1 hhost (State.listens_iff.mp (h hlistens).1).2.1

theorem keepsHost_takeLate (l : List (Option Frame)) (s : State) : KeepsHost s (takeLate l s) :=
  keepsHost_of_outer (outer_foldl (fun _ x => outer_receive x) l s)

theorem keepsHost_passFrame (f : Frame) (s : State) : KeepsHost s (passFrame f s) := by
  unfold passFrame
  split_ifs with hlistens
  · exact keepsHost_of_listens hlistens ((listensOn_passQuiet _).trans (listensOn_closeFrame _ _))
      ((host_receive _ _).trans (host_passQuiet _ s))
  · exact keepsHost_takeLate _ s
  · exact .refl s

theorem keepsHost_quiet (n : Nat) (s : State) : KeepsHost s (if s.listens then passQuiet n s else s) := by
  split_ifs with hlistens
  · exact keepsHost_of_listens hlistens (listensOn_passQuiet n) (host_passQuiet n s)
  · exact .refl s

theorem execFrameDropped_host (rs : List Reading) (s : State) : AnswersHost s (execFrameDropped rs s) := by
  refine answersHost_next ?_
  split_ifs with hlistens
  · exact keepsHost_of_listens hlistens (listensOn_readings rs s) (host_readings rs s)
  · exact keepsHost_takeLate _ s
  · exact .refl s

/-! ## Attempts and the end of a stop (R134, R140 to R146) -/

/-- An attempt starts without a stop pending (R140). -/
theorem keepsHost_tryAttempt (s : State) : KeepsHost s (tryAttempt s) := by
  unfold tryAttempt
  split_ifs with hmay
  · obtain ⟨-, -, hstop, -⟩ := State.mayAttempt_iff.mp hmay
    rcases outer_startAttempt s.answers.length s with h | ⟨f, h⟩
    · exact keepsHost_of_outer h
    · have hstarted : KeepsHost s (s.withTransmitter (some f)) := fun hs => hs.of_going hstop rfl hstop
      exact hstarted.trans (keepsHost_of_outer h)
  · exact .refl s

/-- A BUS_STOP that waited for the attempt completes, in the entry reserved for it (R134, R168). -/
theorem HostSound.completeStop (h : HostSound s) (hpending : s.port.stopPending = true) (hhost : u.host = s.host)
    (hstop : u.port.stopPending = false) : HostSound (completeStop u) := by
  obtain ⟨-, -, b, hb, -⟩ := h.underway hpending
  have hreserved : s.host.reserved = 1 := by rw [h.reserved, h.stopping, hpending, if_pos rfl]
  have hfit := h.completions
  rw [hreserved] at hfit
  obtain ⟨rest, hcommands⟩ : ∃ rest, u.host.commands = b :: rest := by
    rw [hhost]
    exact List.head?_eq_some_iff.mp hb
  simp only [Machine.completeStop, hcommands]
  exact h.completeCommand hhost hstop (.inl rfl) hfit b .ok []

theorem goOffline_frame (s : State) : (goOffline s).host = s.host ∧ (goOffline s).port.stopPending = false := by
  obtain ⟨⟨x, hx⟩, -⟩ := goOffline_spec s
  rw [hx]
  exact ⟨rfl, rfl⟩

/-- The end of an attempt ends the stop that waited for it. -/
theorem keepsHost_endAttempt (s : State) : KeepsHost s (endAttempt s) := by
  intro hs
  cases hpending : s.port.stopPending with
  | false =>
    rw [endAttempt_of_going hpending]
    exact hs.of_going hpending rfl hpending
  | true =>
    obtain ⟨hhost, hstop⟩ := goOffline_frame (s.withTransmitter none)
    have hend : endAttempt s = completeStop (goOffline (s.withTransmitter none)) := by
      simp only [endAttempt, hpending, if_true]
    rw [hend]
    exact hs.completeStop hpending hhost hstop

theorem keepsHost_endAttempt_of_queues (h : u.hostQueues = s.hostQueues) : KeepsHost s (endAttempt u) :=
  (keepsHost_of_queues h).trans (keepsHost_endAttempt u)

theorem keepsHost_loseAttempt (s : State) : KeepsHost s (loseAttempt s) := by
  unfold loseAttempt
  split
  · exact keepsHost_endAttempt s
  · exact keepsHost_endAttempt_of_queues (hostQueues_of_outer (outer_returnEntry _ _))

theorem keepsHost_faultAttempt (s : State) : KeepsHost s (faultAttempt s) := by
  unfold faultAttempt
  split
  · exact keepsHost_endAttempt s
  · rename_i a _
    split_ifs
    · exact keepsHost_endAttempt_of_queues (hostQueues_of_outer (outer_returnEntry _ _))
    · have hdiscard : ((markUnsent (withoutStarted s) a).count .txFaults).outer = s.outer := outer_markUnsent a
      exact keepsHost_endAttempt_of_queues (u := raiseTxFault _) (hostQueues_of_outer hdiscard :)

theorem keepsHost_seeReading (r : Reading) (s : State) : KeepsHost s (seeReading r s) := by
  unfold seeReading
  split_ifs with hlistens
  · exact keepsHost_of_listens hlistens (listensOn_readLine s r) (host_readLine s r)
  · exact .refl s

theorem execAttemptSent_host (s : State) : AnswersHost s (execAttemptSent s) := by
  refine answersHost_next ?_
  split
  · exact .refl s
  · exact keepsHost_endAttempt_of_queues rfl

theorem keepsHost_leaveLine (l : List Bool) (s : State) : KeepsHost s (leaveLine l s) := keepsHost_of_queues rfl

theorem execAttemptLost_host (k : Nat) (s : State) : AnswersHost s (execAttemptLost k s) := by
  refine answersHost_next ?_
  split
  · exact .refl s
  · split_ifs
    · exact ((keepsHost_leaveLine _ s).trans (keepsHost_loseAttempt _)).trans (keepsHost_seeReading _ _)
    · exact .refl s

theorem execAttemptFault_host (k : Nat) (r : Reading) (s : State) : AnswersHost s (execAttemptFault k r s) := by
  refine answersHost_next ?_
  split
  · exact .refl s
  · split_ifs
    · exact ((keepsHost_leaveLine _ s).trans (keepsHost_faultAttempt _)).trans (keepsHost_seeReading _ _)
    · exact .refl s

/-! ## Register accesses (sections 10.1 to 10.6) -/

theorem execCmdData_host (w : Word) (s : State) : AnswersHost s (execCmdData w s) := by
  refine answersHost_next ?_
  split_ifs with hfree
  · exact fun hs => ⟨hfree, hs.commands, hs.completions, hs.emptyPointer, hs.reserved, hs.stopping, hs.underway⟩
  · exact .refl s

/-- A submitted block joins the queue behind its head (R153). -/
theorem execCmdSubmit_host (w : Word) (s : State) : AnswersHost s (execCmdSubmit w s) := by
  refine answersHost_next ?_
  split_ifs with hroom
  · intro hs
    have hlength : (s.host.commands ++ [s.host.stagedBlock w.toNat]).length ≤ 4 := by
      rw [List.length_append]
      exact hroom
    refine ⟨Nat.zero_le _, hlength, hs.completions, hs.emptyPointer, hs.reserved, hs.stopping, fun hpending => ?_⟩
    obtain ⟨htx, honline, b, hb, hstop⟩ := hs.underway hpending
    exact ⟨htx, honline, b, by simp [hb], hstop⟩
  · exact fun hs =>
      ⟨Nat.zero_le _, hs.commands, hs.completions, hs.emptyPointer, hs.reserved, hs.stopping, hs.underway⟩

theorem execCplData_host (s : State) : AnswersHost s (execCplData s) :=
  answersHost_next fun hs =>
    ⟨hs.pointer, hs.commands, hs.completions, fun hnil => if_pos hnil, hs.reserved, hs.stopping, hs.underway⟩

theorem execCplPop_host (w : Word) (s : State) : AnswersHost s (execCplPop w s) := by
  refine answersHost_next ?_
  split
  · exact .refl s
  · rename_i e es hcompletions
    intro hs
    have hfit := hs.completions
    rw [hcompletions, List.length_cons] at hfit
    exact ⟨hs.pointer, hs.commands, show es.length + s.host.reserved ≤ 8 by omega, fun _ => rfl, hs.reserved,
      hs.stopping, hs.underway⟩

/-! ## The taking of a command (section 10.3) -/

/-- A block can be taken without a stop pending alone, and finds the entries it needs. -/
theorem HostSound.of_takeable (h : HostSound s) (htake : s.takeable = some b) :
    s.port.stopPending = false ∧ s.host.reserved = 0 ∧ s.host.commands.head? = some b ∧
      s.host.completions.length + b.needs ≤ 8 := by
  obtain ⟨hexecuting, hhead, hfit⟩ := takeable_eq_some_iff.mp htake
  have hreserved : s.host.reserved = 0 := by simp [h.reserved, hexecuting]
  rw [hreserved] at hfit
  exact ⟨h.stopping.symm.trans hexecuting, hreserved, hhead, hfit⟩

theorem needs_of_command {k : HostKind} (h : b.command = some k) : b.needs = k.entries := by
  simp only [Block.needs, (command_eq_some_iff.mp h).2.1]

theorem HostKind.entries_cases (k : HostKind) : k.entries = 1 ∨ k.entries = 2 := by
  cases k <;> decide

/-- A decision leaves the host unit, and a port without a stop pending so. -/
def LeavesHost (s u : State) : Prop := u.host = s.host ∧ (s.port.stopPending = false → u.port.stopPending = false)

theorem leavesHost_of_outer (h : u.outer = s.outer) : LeavesHost s u :=
  ⟨congrArg Outer.host h, fun hs => by rwa [show u.port = s.port from congrArg Outer.port h]⟩

theorem takeCommand_host {k : HostKind} {f : Block → State → OutcomeCode × List Word × State}
    (h : ∀ b, LeavesHost s (f b s).2.2) : AnswersHost s (.next (takeCommand k f s)) := by
  refine answersHost_next ?_
  unfold takeCommand
  split
  · exact .refl s
  · rename_i b htake
    split_ifs with hcommand
    · intro hs
      obtain ⟨hstop, -, -, hfit⟩ := hs.of_takeable htake
      rw [needs_of_command hcommand] at hfit
      exact hs.completeCommand (h b).1 ((h b).2 hstop) k.entries_cases hfit b _ _
    · exact .refl s

theorem takeCommand_host_of_outer {k : HostKind} {f : Block → State → OutcomeCode × List Word × State}
    (h : ∀ b, (f b s).2.2.outer = s.outer) : AnswersHost s (.next (takeCommand k f s)) :=
  takeCommand_host fun b => leavesHost_of_outer (h b)

theorem one_le_needs (b : Block) : 1 ≤ b.needs := by
  rw [needs_eq]
  split_ifs <;> decide

theorem execBadCommand_host (s : State) : AnswersHost s (execBadCommand s) := by
  refine answersHost_next ?_
  split
  · exact .refl s
  · rename_i b htake
    split_ifs
    · intro hs
      obtain ⟨hstop, -, -, hfit⟩ := hs.of_takeable htake
      have hneeds := one_le_needs b
      exact hs.completeCommand rfl hstop (.inl rfl) (by omega) b _ _
    · exact .refl s

theorem leavesHost_decideSetDevice (b : Block) (s : State) : LeavesHost s (decideSetDevice b s).2.2 := by
  unfold decideSetDevice
  split
  · exact ⟨rfl, id⟩
  · split_ifs <;> exact ⟨rfl, id⟩

theorem leavesHost_decideBusStart (b : Block) (s : State) : LeavesHost s (decideBusStart b s).2.2 := by
  unfold decideBusStart
  split_ifs <;> exact ⟨rfl, id⟩

theorem leavesHost_decideBusStop (b : Block) (s : State) : LeavesHost s (decideBusStop b s).2.2 := by
  unfold decideBusStop
  split_ifs
  · exact ⟨rfl, id⟩
  · exact ⟨(goOffline_frame s).1, fun _ => (goOffline_frame s).2⟩

theorem leavesHost_decideSetMaintMode (b : Block) (s : State) : LeavesHost s (decideSetMaintMode b s).2.2 := by
  unfold decideSetMaintMode
  split <;> exact ⟨rfl, id⟩

/-- BUS_STOP in an attempt goes on executing, its entry reserved (R134, R168). -/
theorem execBusStop_host (s : State) : AnswersHost s (execBusStop s) := by
  unfold execBusStop
  split_ifs with hattempt
  · refine answersHost_next ?_
    split
    · exact .refl s
    · rename_i b htake
      split_ifs with hcommand
      · intro hs
        obtain ⟨-, -, hhead, hfit⟩ := hs.of_takeable htake
        rw [needs_of_command hcommand] at hfit
        exact ⟨hs.pointer, hs.commands, hfit, hs.emptyPointer, rfl, rfl,
          fun _ => ⟨hattempt.2, hattempt.1, b, hhead, hcommand⟩⟩
      · exact .refl s
  · exact takeCommand_host (leavesHost_decideBusStop · s)

/-! ## Expiries (chapters 5 and 6) -/

theorem execLeaseExpiry_host (i : SlotIx) (s : State) : AnswersHost s (execLeaseExpiry i s) := by
  refine answersHost_next ?_
  split
  · exact .refl s
  · split_ifs
    · exact keepsHost_of_outer (outer_leaseExpired i _)
    · exact .refl s

theorem execGraceExpiry_host (i : SlotIx) (s : State) : AnswersHost s (execGraceExpiry i s) := by
  refine answersHost_next ?_
  split
  · exact .refl s
  · split_ifs
    · exact keepsHost_of_outer (outer_graceExpired i _)
    · exact .refl s

theorem execFreezeLimitExpiry_host (z : ZoneIx) (s : State) : AnswersHost s (execFreezeLimitExpiry z s) := by
  refine answersHost_of_queues ?_
  split_ifs
  · exact (hostQueues_of_outer (outer_thawZone z) :)
  · rfl

/-! ## The maintenance port (chapter 11) -/

theorem hostQueues_endRequest (f : MaintFrame) (s : State) : (endRequest f s).hostQueues = s.hostQueues := by
  unfold endRequest
  split
  case h_5 =>
    unfold doAttention
    split <;> rfl
  all_goals rfl

theorem hostQueues_endFrame (f : MaintFrame) (s : State) : (endFrame f s).hostQueues = s.hostQueues := by
  unfold endFrame
  split
  · exact hostQueues_endRequest f s
  · unfold endPokeData
    split
    · rfl
    · exact (hostQueues_of_outer (outer_applyStep ..) :)
  · unfold endPokeReadBack
    split <;> rfl
  · rfl

theorem hostQueues_seeEdge (s : State) : (seeEdge s).hostQueues = s.hostQueues := by
  simp only [seeEdge]
  split_ifs <;> rfl

theorem hostQueues_sampleBit (b : Bool) (s : State) : (sampleBit b s).hostQueues = s.hostQueues := by
  simp only [sampleBit]
  split_ifs
  · rfl
  · rfl
  · exact hostQueues_endFrame _ _

theorem hostQueues_clockEdge (e : MclkEdge) (s : State) : (clockEdge e s).hostQueues = s.hostQueues := by
  have hedge : (sampleBit e.mdi (seeEdge s)).hostQueues = s.hostQueues :=
    (hostQueues_sampleBit _ _).trans (hostQueues_seeEdge s)
  simp only [clockEdge]
  split_ifs <;> exact hedge

theorem hostQueues_clockEdges (l : List Bool) : ∀ s : State,
    (l.foldl (fun u b => clockEdge ⟨b, true⟩ u) s).hostQueues = s.hostQueues := by
  induction l with
  | nil => exact fun _ => rfl
  | cons b l ih => exact fun s => (ih _).trans (hostQueues_clockEdge _ s)

theorem clockFrame_host (f : MaintFrame) (s : State) : AnswersHost s (.next (clockFrame f s)) :=
  answersHost_of_queues (hostQueues_clockEdges (frameBits f) s)

theorem execFrameTimeout_host (s : State) : AnswersHost s (execFrameTimeout s) := by
  refine answersHost_of_queues ?_
  split_ifs <;> rfl

/-! ## Every command, and the part's own turn -/

/-- Power-on values are sound (R152, R154, R156). -/
theorem execReset_host (a : Addr) (rate : BitVec 2) (s : State) : AnswersHost s (execReset a rate s) :=
  answersHost_next fun _ =>
    ⟨Nat.zero_le _, Nat.zero_le _, Nat.zero_le _, fun _ => rfl, rfl, rfl, nofun⟩

theorem exec_host (c : Instr) (s : State) : AnswersHost s (exec c s) := by
  cases c with
  | reset a rate => exact execReset_host a rate s
  | leaseExpiry i => exact execLeaseExpiry_host i s
  | graceExpiry i => exact execGraceExpiry_host i s
  | freezeLimitExpiry z => exact execFreezeLimitExpiry_host z s
  | frameDropped rs => exact execFrameDropped_host rs s
  | publish | withdraw | subscribe | unsubscribe | query => exact answersHost_next (keepsHost_passFrame _ s)
  | busOnline n => exact answersHost_next (keepsHost_quiet n s)
  | attemptStart n => exact answersHost_next ((keepsHost_quiet n s).trans (keepsHost_tryAttempt _))
  | attemptSent => exact execAttemptSent_host s
  | attemptLost k => exact execAttemptLost_host k s
  | attemptFault k r => exact execAttemptFault_host k r s
  | cmdData w => exact execCmdData_host w s
  | cmdSubmit w => exact execCmdSubmit_host w s
  | cplData => exact execCplData_host s
  | cplPop w => exact execCplPop_host w s
  | intStatus | intEnable | maintMailbox | ignoredWrite => exact answersHost_of_queues rfl
  | badCommand => exact execBadCommand_host s
  | create => exact takeCommand_host_of_outer (outer_decideCreate · s)
  | retire => exact takeCommand_host_of_outer (outer_decideRetire · s)
  | write => exact takeCommand_host_of_outer (outer_decideWrite · s)
  | force => exact takeCommand_host_of_outer (outer_decideForce · s)
  | unforce => exact takeCommand_host_of_outer (outer_decideUnforce · s)
  | read => exact takeCommand_host_of_outer (outer_decideRead · s)
  | list => exact takeCommand_host_of_outer (outer_decideList · s)
  | setZone => exact takeCommand_host_of_outer (outer_decideSetZone · s)
  | zoneStatus => exact takeCommand_host_of_outer (outer_decideZoneStatus · s)
  | freeze => exact takeCommand_host_of_outer (outer_decideFreeze · s)
  | thaw => exact takeCommand_host_of_outer (outer_decideThaw · s)
  | setDevice => exact takeCommand_host (leavesHost_decideSetDevice · s)
  | busStart => exact takeCommand_host (leavesHost_decideBusStart · s)
  | busStop => exact execBusStop_host s
  | clearTable => exact takeCommand_host_of_outer fun _ => outer_clearTable
  | counters => exact takeCommand_host_of_outer (outer_decideCounters · s)
  | setMaintMode => exact takeCommand_host (leavesHost_decideSetMaintMode · s)
  | noRequest | unknownRequestCode | nop | peek | peekZone | watch | attention | poke | pokeDataFrame | pokeReadBack
  | pokeEnd => exact clockFrame_host _ s
  | frameTimeout => exact execFrameTimeout_host s
  | alignmentRecovery | mclkRisingEdge => exact answersHost_of_queues (hostQueues_clockEdge _ s)

/-- The part's own turn moves time base, line time and waiting commands alone. -/
theorem hostQueues_ownTurn (s : State) : s.ownTurn.hostQueues = s.hostQueues := by
  unfold State.ownTurn
  split
  · split_ifs <;> rfl
  · rfl

/-- Settles O11: the command at the front keeps the host queues sound, and the part's own turn leaves them. -/
theorem stepKeepsTheHostQueuesSound : Obligations.StepKeepsTheHostQueuesSound := by
  intro s t hs hstep
  unfold step at hstep
  split at hstep
  · rename_i c rest _
    obtain ⟨u, hu, hkeeps⟩ := exec_host c (s.withPending rest)
    obtain rfl : u = t := Host.Outcome.next.inj (hu.symm.trans hstep)
    exact hkeeps (hs.congr rfl)
  · obtain rfl : s.ownTurn = t := Host.Outcome.next.inj hstep
    exact hs.congr (hostQueues_ownTurn s)

end Sys2Proof.Machine
end

section
/-! PROOF. The readings of the line as the port takes them (chapter 8): quiet and JOINING, the frames that it does not
take. -/

namespace Sys2Proof.Machine

variable {s : State} {f : Frame} {l l0 : List Bool}

/-! ## Which port a row reaches (R122, R129, R134) -/

theorem State.reads_iff : s.reads = true ↔ s.port.state ≠ .offline ∧ s.port.stopPending = false := by
  simp [State.reads]

theorem State.reads_eq_false : s.reads = false ↔ s.port.state = .offline ∨ s.port.stopPending = true := by
  rw [← Bool.not_eq_true, State.reads_iff, not_and_or, not_not, Bool.not_eq_false]

theorem State.listens_of_reads (h : s.reads = true) (ht : s.transmitter = none) : s.listens = true := by
  simp [State.listens, h, ht]

theorem State.listens_of_attempt (ht : s.transmitter ≠ none) : s.listens = false := by
  simp [State.listens, Option.isSome_iff_ne_none, ht]

theorem State.listens_of_deaf (h : s.reads = false) : s.listens = false := by
  simp [State.listens, h]

/-- A row of readings reaches a receiver, an attempt, or a port that does not read. -/
theorem State.hearing_cases (s : State) :
    s.listens = true ∨ (s.reads = true ∧ s.transmitter ≠ none) ∨ s.reads = false := by
  cases hreads : s.reads with
  | false => exact .inr (.inr rfl)
  | true =>
    by_cases ht : s.transmitter = none
    · exact .inl (State.listens_of_reads hreads ht)
    · exact .inr (.inl ⟨rfl, ht⟩)

theorem exec_frameDropped_of_listens (h : s.listens = true) (rs : List Reading) :
    exec (.frameDropped rs) s = .next (rs.foldl readLine s) :=
  congrArg Host.Outcome.next (if_pos h)

theorem exec_frameDropped_of_attempt (h : s.reads = true) (ht : s.transmitter ≠ none) (rs : List Reading) :
    exec (.frameDropped rs) s = .next (takeLate (endedFrames 11 none rs) s) := by
  simp only [exec, execFrameDropped, State.listens_of_attempt ht, h, Bool.false_eq_true, if_false, if_true,
    Config.idleBits]

theorem exec_frameDropped_of_deaf (h : s.reads = false) (rs : List Reading) : exec (.frameDropped rs) s = .next s := by
  simp only [exec, execFrameDropped, State.listens_of_deaf h, h, Bool.false_eq_true, if_false]

theorem exec_busOnline_of_listens (h : s.listens = true) (n : Nat) :
    exec (.busOnline n) s = .next (passQuiet n s) :=
  congrArg Host.Outcome.next (if_pos h)

theorem exec_busOnline_of_not_listens (h : s.listens = false) (n : Nat) : exec (.busOnline n) s = .next s := by
  simp only [exec, execBusOnline, h, Bool.false_eq_true, if_false]

theorem passFrame_of_deaf (h : s.reads = false) (f : Frame) : passFrame f s = s := by
  simp only [passFrame, State.listens_of_deaf h, h, Bool.false_eq_true, if_false]

/-! ## Quiet (R117, R132) -/

/-- Quiet is waited for at once or in two parts: what the first part brings ONLINE stays so. -/
theorem waitQuiet_waitQuiet (m n : Nat) (s : State) : waitQuiet n (waitQuiet m s) = waitQuiet (m + n) s := by
  simp only [waitQuiet, State.withPort_port, Nat.add_assoc]
  by_cases h : s.port.state = .joining ∧ s.port.bitRate.joinBits ≤ s.port.quietTime + m
  · have h' : s.port.state = .joining ∧ s.port.bitRate.joinBits ≤ s.port.quietTime + (m + n) := ⟨h.1, by omega⟩
    simp only [if_pos h, if_pos h']
    rfl
  · simp only [if_neg h]
    rfl

theorem closeFrame_port (n : Nat) (x : Option Frame) (s : State) : (closeFrame n x s).port =
    { s.port with quietTime := 1, underWay := none, lineTime := s.port.lineTime + n + 1 } :=
  (sameLine_receive x _).1

theorem waitQuiet_zero_closeFrame (n : Nat) (x : Option Frame) (s : State) :
    waitQuiet 0 (closeFrame n x s) = closeFrame n x s :=
  waitQuiet_zero (by rw [closeFrame_port])

theorem passQuiet_succ (n : Nat) (s : State) : passQuiet (n + 1) s = passQuiet n (passQuiet 1 s) := by
  cases hframe : s.port.underWay with
  | none =>
    rw [passQuiet_of_none hframe, passQuiet_of_none hframe]
    cases n with
    | zero => rfl
    | succ n => rw [passQuiet_of_none (s := waitQuiet (0 + 1) s) hframe, waitQuiet_waitQuiet, Nat.add_comm (0 + 1)]
  | some l =>
    rw [passQuiet_of_some hframe, passQuiet_of_some hframe, waitQuiet_zero_closeFrame]
    cases n with
    | zero => exact waitQuiet_zero_closeFrame _ _ _
    | succ n => rw [passQuiet_of_none (closeFrame_underWay _ _)]

/-- Quiet readings, one after the other, are so many quiet bit times. -/
theorem foldl_quiet (n : Nat) : ∀ s : State, (List.replicate n Reading.quiet).foldl readLine s = passQuiet n s := by
  induction n with
  | zero => exact fun _ => rfl
  | succ n ih => exact fun s => (ih _).trans (passQuiet_succ n s).symm

/-- Behind 11 quiet bit times the line is idle. -/
theorem passQuiet_idle (s : State) :
    (passQuiet 11 s).port.underWay = none ∧ 11 ≤ (passQuiet 11 s).port.quietTime := by
  cases hframe : s.port.underWay with
  | none =>
    rw [passQuiet_of_none hframe]
    exact ⟨hframe, Nat.le_add_left _ _⟩
  | some l =>
    rw [passQuiet_of_some hframe]
    refine ⟨closeFrame_underWay _ _, ?_⟩
    simp only [waitQuiet, State.withPort_port, closeFrame_port]
    decide

theorem validAddress_iff {a : Addr} : validAddress a = true ↔ a ≠ 0 ∧ a ≠ 63 := decide_eq_true_iff

/-- Settles O34: quiet by what it waits for, BUS_START by the branches of its decision. -/
theorem joiningTheLine : Obligations.JoiningTheLine := by
  refine ⟨⟨rfl, rfl, rfl, rfl⟩, fun s n hon hgoing hfree => ?quiet, fun s b htake => ?start⟩
  case quiet =>
    rw [exec_busOnline_of_listens (State.listens_iff.mpr ⟨hon, hgoing, hfree⟩)]
    refine ⟨fun hn => by rw [hn, passQuiet_zero], fun hn hnone => ?_⟩
    obtain ⟨m, rfl⟩ : ∃ m, n = m + 1 := ⟨n - 1, by omega⟩
    rw [passQuiet_of_none hnone]
    rfl
  case start =>
    have hexec : exec .busStart s = .next
        (completeCommand b 1 (decideBusStart b s).1 (decideBusStart b s).2.1 (decideBusStart b s).2.2) :=
      congrArg Host.Outcome.next (takeCommand_of_canTake htake decideBusStart)
    rw [hexec]
    refine ⟨fun hon => ?_, fun hoff haddress => ?_, fun hoff h0 h63 => ?_⟩
    · rw [decideBusStart, if_pos hon]
      rfl
    · have hinvalid : ¬ validAddress s.settings.ownAddress = true := by
        rw [validAddress_iff, ← not_or, not_not]
        exact haddress
      rw [decideBusStart, if_neg (not_not.mpr hoff), if_neg hinvalid]
      rfl
    · have hvalid : validAddress s.settings.ownAddress = true := validAddress_iff.mpr ⟨h0, h63⟩
      have hpos : 0 < s.settings.bitRate.bitsPerMilli := by cases s.settings.bitRate <;> decide
      refine ⟨Config.startPhase s.timeBase % s.settings.bitRate.bitsPerMilli, Nat.mod_lt _ hpos, ?_⟩
      rw [decideBusStart, if_neg (not_not.mpr hoff), if_pos hvalid]
      rfl

/-! ## Driven bits and the quiet bit time behind them (R117) -/

theorem readLine_quiet_of_some (h : s.port.underWay = some l) :
    readLine s .quiet = closeFrame 0 (parseFrame l) s := by
  rw [readLine, passQuiet_of_some h, waitQuiet_zero_closeFrame]

theorem foldl_frame (l : List Bool) (s : State) : (l.map readingOf ++ [Reading.quiet]).foldl readLine s =
    readLine (l.foldl (fun v b => takeBit b v) s) .quiet := by
  rw [List.foldl_append, foldl_readingOf]
  rfl

/-- Bits that go on with the frame under way are its rest. -/
theorem foldl_frame_of_some (h : s.port.underWay = some l0) :
    (l.map readingOf ++ [Reading.quiet]).foldl readLine s = closeFrame l.length (parseFrame (l0 ++ l)) s := by
  rw [foldl_frame]
  by_cases hl : l = []
  · subst hl
    rw [List.foldl_nil, readLine_quiet_of_some h, List.append_nil]
    rfl
  · rw [takeBits_of_some h hl, readLine_quiet_of_some rfl]
    rfl

/-- Bits on the idle line are a frame. -/
theorem foldl_frame_of_idle (h : s.port.underWay = none) (hquiet : 11 ≤ s.port.quietTime) (hl : l ≠ []) :
    (l.map readingOf ++ [Reading.quiet]).foldl readLine s = closeFrame l.length (parseFrame l) s := by
  rw [foldl_frame, takeBits_of_idle h hquiet hl, readLine_quiet_of_some rfl]
  rfl

/-- Bits that begin before the line is idle are no frame's. -/
theorem foldl_frame_of_busy (h : s.port.underWay = none) (hquiet : s.port.quietTime < 11) (hl : l ≠ []) :
    (l.map readingOf ++ [Reading.quiet]).foldl readLine s = s.withPort
      { s.port with quietTime := 1, underWay := none, lineTime := s.port.lineTime + (l.length + 1) } := by
  have hjoin : ¬ (s.port.state = .joining ∧ s.port.bitRate.joinBits ≤ 1) := fun hj =>
    absurd s.port.bitRate.one_lt_joinBits (Nat.not_lt.mpr hj.2)
  rw [foldl_frame, takeBits_of_busy h hquiet hl, readLine, passQuiet_of_none rfl]
  simp only [waitQuiet, State.withPort_port, Nat.zero_add, if_neg hjoin]
  rfl

/-! ## Frames that are not taken (R124, R125) -/

/-- The state behind `n` driven bits and a quiet bit time; in an attempt the line is the attempt's (log 8). -/
def State.pastBits (n : Nat) (s : State) : State :=
  { s with
    port :=
      if s.transmitter = none then
        { s.port with quietTime := 1, underWay := none, lineTime := s.port.lineTime + (n + 1) }
      else s.port }

theorem pastBits_of_free (ht : s.transmitter = none) (n : Nat) : s.pastBits n = s.withPort
    { s.port with quietTime := 1, underWay := none, lineTime := s.port.lineTime + (n + 1) } := by
  rw [State.pastBits, if_pos ht]
  rfl

theorem pastBits_of_attempt (ht : s.transmitter ≠ none) (n : Nat) : s.pastBits n = s := by
  rw [State.pastBits, if_neg ht]

@[simp] theorem pastBits_ownAddress (n : Nat) (s : State) : (s.pastBits n).port.ownAddress = s.port.ownAddress := by
  simp only [State.pastBits]
  split_ifs <;> rfl

theorem closeFrame_eq (ht : s.transmitter = none) (n : Nat) (x : Option Frame) :
    closeFrame n x s = receive x (s.pastBits n) := by
  rw [pastBits_of_free ht]
  rfl

/-- The bits `l` end a frame that begins with `l0`: the frame under way, or one that starts on the idle line; in an
attempt they are a frame of their own (log 8). -/
def State.EndsFrame (s : State) (l0 l : List Bool) : Prop :=
  (s.transmitter = none ∧ s.port.underWay = some l0) ∨
    (s.transmitter = none ∧ s.port.underWay = none ∧ 11 ≤ s.port.quietTime ∧ l0 = [] ∧ l ≠ []) ∨
    (s.transmitter ≠ none ∧ l0 = [] ∧ l ≠ [])

/-- Bits that end a frame bring it to reception (R123, R124). -/
theorem exec_frameDropped_of_endsFrame (hreads : s.reads = true) (h : s.EndsFrame l0 l) :
    exec (.frameDropped (l.map readingOf ++ [.quiet])) s =
      .next (receive (parseFrame (l0 ++ l)) (s.pastBits l.length)) := by
  rcases h with ⟨ht, hframe⟩ | ⟨ht, hnone, hquiet, rfl, hl⟩ | ⟨ht, rfl, hl⟩
  · rw [exec_frameDropped_of_listens (State.listens_of_reads hreads ht), foldl_frame_of_some hframe, closeFrame_eq ht]
  · rw [exec_frameDropped_of_listens (State.listens_of_reads hreads ht), foldl_frame_of_idle hnone hquiet hl,
      closeFrame_eq ht]
    rfl
  · have hended : endedFrames 11 none (l.map readingOf ++ [.quiet]) = [parseFrame ([] ++ l)] :=
      endedFrames_bits l 11 none (.inr ⟨le_rfl, hl⟩)
    rw [exec_frameDropped_of_attempt hreads ht, hended, pastBits_of_attempt ht]
    rfl

theorem checkFrame_of_malformed (h : f.source = 0 ∨ f.source = 63 ∨ f.kind ∉ kindTable) : s.checkFrame f = .bad := by
  simp only [State.checkFrame]
  rw [if_pos (by simpa using h)]

theorem checkFrame_of_own (h : f.source = s.port.ownAddress) : s.checkFrame f = .bad := by
  simp only [State.checkFrame]
  split_ifs
  · rfl
  · rfl

theorem checkFrame_of_ignored (h0 : f.source ≠ 0) (h63 : f.source ≠ 63) (hkind : f.kind ∈ kindTable)
    (hown : f.source ≠ s.port.ownAddress)
    (h : (f.destination ≠ s.port.ownAddress ∧ f.destination ≠ 63) ∨ f.kind ∈ sentKinds ∨
      (f.destination = 63 ∧ f.kind ≠ 1)) : s.checkFrame f = .ignored := by
  have hformed : ¬ (f.source = 0 ∨ f.source = 63 ∨ (!kindTable.contains f.kind) = true) := by
    simpa [hkind] using And.intro h0 h63
  simp only [State.checkFrame, if_neg hformed, if_neg hown]
  split_ifs with hother hsent
  · rfl
  · rfl
  · exact absurd (h.resolve_left hother) (by simpa using hsent)

theorem receive_of_bad (h : s.checkFrame f = .bad) : receive (some f) s = s.count .rxBad := by
  simp only [receive, h]

theorem receive_of_ignored (h : s.checkFrame f = .ignored) : receive (some f) s = s := by
  simp only [receive, h]

/-- Settles O25: what does not reach a receiver, bits of no frame, and frames by the checks of their reception. -/
theorem framesNotTaken : Obligations.FramesNotTaken := by
  refine fun s => ⟨fun ht n => exec_busOnline_of_not_listens (State.listens_of_attempt ht) n, fun h => ?deaf,
    fun hon hgoing l => ?reading⟩
  case deaf =>
    have hdeaf : s.reads = false := State.reads_eq_false.mpr h
    have hpass : ∀ f, Host.Outcome.next (passFrame f s) = (.next s : Host.Outcome State Fault Refusal) :=
      fun f => congrArg _ (passFrame_of_deaf hdeaf f)
    exact ⟨exec_frameDropped_of_deaf hdeaf, exec_busOnline_of_not_listens (State.listens_of_deaf hdeaf),
      fun _ _ _ _ _ _ => ⟨hpass _, hpass _, hpass _, hpass _, hpass _⟩⟩
  case reading =>
    have hreads : s.reads = true := State.reads_iff.mpr ⟨hon, hgoing⟩
    refine ⟨fun ht hnone hquiet hl => ?_, fun l0 h => ?_⟩
    · have hlistens := State.listens_of_reads hreads ht
      refine (exec_frameDropped_of_listens hlistens (l.map readingOf ++ [.quiet])).trans ?_
      rw [foldl_frame_of_busy hnone hquiet hl, ← pastBits_of_free ht]
      rfl
    · have hended := exec_frameDropped_of_endsFrame hreads h
      have hbad : ∀ f, parseFrame (l0 ++ l) = some f → (s.pastBits l.length).checkFrame f = .bad →
          exec (.frameDropped (l.map readingOf ++ [.quiet])) s = .next ((s.pastBits l.length).count .rxBad) := by
        intro f hf hcheck
        rw [hended, hf, receive_of_bad hcheck]
      refine ⟨fun hnone => ?_, fun f hf => ⟨fun h => ?_, fun h => ?_, fun h0 h63 hkind hown h => ?_⟩⟩
      · rw [hnone] at hended
        exact hended
      · exact hbad f hf (checkFrame_of_malformed h)
      · exact hbad f hf (checkFrame_of_own (by rw [h, pastBits_ownAddress]))
      · rw [← pastBits_ownAddress l.length s] at hown h
        rw [hf, receive_of_ignored (checkFrame_of_ignored h0 h63 hkind hown h)] at hended
        exact hended

end Sys2Proof.Machine
end

section
/-! PROOF. A request frame given by its readings: readings one row after the other, and the fields and the payload that
the row of its kind does not read (R117, R118, R126; logs 8 and 11). -/

namespace Sys2Proof.Machine

variable {s : State} {f g : Frame}

/-! ## Readings in one row or in two (R116, R117) -/

theorem exec_frameDropped_append {l m : List Reading} {t : State} (hfree : s.transmitter = none)
    (h : exec (.frameDropped l) s = .next t) : exec (.frameDropped (l ++ m)) s = exec (.frameDropped m) t := by
  rcases s.hearing_cases with hlistens | ⟨-, ht⟩ | hdeaf
  · rw [exec_frameDropped_of_listens hlistens] at h ⊢
    obtain rfl := Host.Outcome.next.inj h
    rw [exec_frameDropped_of_listens (listensOn_readings l s hlistens).1, List.foldl_append]
  · exact absurd hfree ht
  · rw [exec_frameDropped_of_deaf hdeaf] at h ⊢
    obtain rfl := Host.Outcome.next.inj h
    rw [exec_frameDropped_of_deaf hdeaf]

/-- On an idle line it does not matter for how long it has been idle. -/
theorem endedFrames_idle (rs : List Reading) : ∀ {q : Nat}, 11 ≤ q →
    endedFrames q none rs = endedFrames 11 none rs := by
  induction rs with
  | nil => exact fun _ => by simp only [endedFrames]
  | cons r rs ih =>
    intro q hq
    cases r with
    | quiet =>
      simp only [endedFrames]
      exact (ih (Nat.le_succ_of_le hq)).trans (ih (by decide : 11 ≤ 11 + 1)).symm
    | zero | one => simp only [endedFrames, withBit_none, if_pos hq, if_pos le_rfl]

theorem endedFrames_quiet (n : Nat) (rs : List Reading) : ∀ q : Nat,
    endedFrames q none (List.replicate n .quiet ++ rs) = endedFrames (q + n) none rs := by
  induction n with
  | zero => exact fun _ => rfl
  | succ n ih =>
    intro q
    rw [List.replicate_succ, List.cons_append, endedFrames, ih, Nat.add_assoc, Nat.add_comm 1]

/-- Behind 11 quiet bit times the frames begin anew. -/
theorem endedFrames_append (m l : List Reading) : ∀ (q : Nat) (w : Option (List Bool)),
    endedFrames q w (l ++ List.replicate 11 .quiet ++ m) =
      endedFrames q w (l ++ List.replicate 11 .quiet) ++ endedFrames 11 none m := by
  have hidle : ∀ q, endedFrames q none (List.replicate 11 .quiet) = [] := fun q => by
    have h := endedFrames_quiet 11 [] q
    rwa [List.append_nil, endedFrames] at h
  induction l with
  | nil =>
    intro q w
    rw [List.nil_append]
    cases w with
    | none => rw [endedFrames_quiet, hidle, endedFrames_idle m (Nat.le_add_left 11 q), List.nil_append]
    | some w =>
      have hfirst : ∀ rs, endedFrames q (some w) (List.replicate 11 .quiet ++ rs) =
          parseFrame w :: endedFrames 11 none rs := fun rs =>
        congrArg (parseFrame w :: ·) (endedFrames_quiet 10 rs 1)
      have halone := hfirst []
      rw [List.append_nil, endedFrames] at halone
      rw [hfirst, halone]
      rfl
  | cons r l ih =>
    intro q w
    cases r with
    | quiet => cases w <;> simp only [List.cons_append, endedFrames, ih]
    | zero | one => cases w <;> simp only [List.cons_append, endedFrames, ih]

theorem exec_frameDropped_append_of_attempt {l m : List Reading} {t : State} (ht : s.transmitter ≠ none)
    (h : exec (.frameDropped (l ++ List.replicate 11 .quiet)) s = .next t) :
    exec (.frameDropped (l ++ List.replicate 11 .quiet ++ m)) s = exec (.frameDropped m) t := by
  cases hreads : s.reads with
  | false =>
    rw [exec_frameDropped_of_deaf hreads] at h ⊢
    obtain rfl := Host.Outcome.next.inj h
    rw [exec_frameDropped_of_deaf hreads]
  | true =>
    rw [exec_frameDropped_of_attempt hreads ht] at h ⊢
    obtain rfl := Host.Outcome.next.inj h
    have hline := SameLine.foldl (fun v x => sameLine_receive x v)
      (endedFrames 11 none (l ++ List.replicate 11 .quiet)) s
    have hreads' : (takeLate (endedFrames 11 none (l ++ List.replicate 11 .quiet)) s).reads = true := by
      rw [State.reads, show (takeLate _ s).port = s.port from hline.1]
      exact hreads
    have ht' : (takeLate (endedFrames 11 none (l ++ List.replicate 11 .quiet)) s).transmitter ≠ none := by
      rw [show (takeLate _ s).transmitter = s.transmitter from hline.2]
      exact ht
    rw [exec_frameDropped_of_attempt hreads' ht', endedFrames_append, takeLate, List.foldl_append]
    rfl

theorem exec_frameDropped_nil (s : State) : exec (.frameDropped []) s = .next s := by
  rcases s.hearing_cases with hlistens | ⟨hreads, ht⟩ | hdeaf
  · exact exec_frameDropped_of_listens hlistens []
  · rw [exec_frameDropped_of_attempt hreads ht, endedFrames]
    rfl
  · exact exec_frameDropped_of_deaf hdeaf []

theorem exec_busOnline_eq (s : State) (n : Nat) :
    exec (.busOnline n) s = exec (.frameDropped (List.replicate n .quiet)) s := by
  rcases s.hearing_cases with hlistens | ⟨hreads, ht⟩ | hdeaf
  · rw [exec_busOnline_of_listens hlistens, exec_frameDropped_of_listens hlistens, foldl_quiet]
  · have hnone := endedFrames_quiet n [] 11
    rw [List.append_nil, endedFrames] at hnone
    rw [exec_busOnline_of_not_listens (State.listens_of_attempt ht), exec_frameDropped_of_attempt hreads ht, hnone]
    rfl
  · rw [exec_busOnline_of_not_listens (State.listens_of_deaf hdeaf), exec_frameDropped_of_deaf hdeaf]

/-- One driven bit, by what is under way (R117). -/
theorem exec_frameDropped_bit (hlistens : s.listens = true) (b : Bool) :
    exec (.frameDropped [readingOf b]) s = .next (takeBit b s) := by
  rw [exec_frameDropped_of_listens hlistens, List.foldl_cons, readLine_readingOf]
  rfl

/-! ## A whole frame behind the idle line (R117, R123) -/

theorem onLine_eq_parseFrame (h : f.payload.length ≤ 8) : onLine f = parseFrame f.bits := by
  rw [onLine, if_pos h, parseFrame_bits h]

/-- 11 quiet bit times, the bits of a frame and a quiet bit time pass that frame. -/
theorem exec_frameDropped_whole (h : f.payload.length ≤ 8) (s : State) :
    exec (.frameDropped (List.replicate 11 .quiet ++ f.bits.map readingOf ++ [.quiet])) s = .next (passFrame f s) := by
  have hbits : f.bits ≠ [] := List.ne_nil_of_length_pos (by rw [f.bits_length]; omega)
  rw [List.append_assoc]
  rcases s.hearing_cases with hlistens | ⟨hreads, ht⟩ | hdeaf
  · obtain ⟨hnone, hquiet⟩ := passQuiet_idle s
    rw [exec_frameDropped_of_listens hlistens, List.foldl_append, foldl_quiet, foldl_frame_of_idle hnone hquiet hbits,
      passFrame, if_pos hlistens, onLine_eq_parseFrame h]
  · have hended : endedFrames (11 + 11) none (f.bits.map readingOf ++ [.quiet]) = [parseFrame ([] ++ f.bits)] :=
      endedFrames_bits f.bits _ none (.inr ⟨by decide, hbits⟩)
    rw [exec_frameDropped_of_attempt hreads ht, endedFrames_quiet, hended, passFrame,
      if_neg (by simp [State.listens_of_attempt ht]), if_pos hreads, onLine_eq_parseFrame h]
    rfl
  · rw [exec_frameDropped_of_deaf hdeaf, passFrame_of_deaf hdeaf]

/-! ## The fields that a kind does not read (R118) -/

/-- Frames that are received alike: their addresses and kind agree, and so does what their owner makes of them. -/
structure ReadAlike (f g : Frame) : Prop where
  destination : f.destination = g.destination
  source : f.source = g.source
  kind : f.kind = g.kind
  dispatch : ∀ s, dispatchFrame f s = dispatchFrame g s

theorem ReadAlike.receive_eq (h : ReadAlike f g) (s : State) : receive (some f) s = receive (some g) s := by
  have hcheck : s.checkFrame f = s.checkFrame g := by
    simp only [State.checkFrame, h.destination, h.source, h.kind]
  simp only [receive, hcheck, h.dispatch]

/-- Frames of one payload length that are received alike pass alike. -/
theorem ReadAlike.passFrame_eq (h : ReadAlike f g) (hlen : f.payload.length = g.payload.length) (s : State) :
    passFrame f s = passFrame g s := by
  have honLine : ∀ v, receive (onLine f) v = receive (onLine g) v := fun v => by
    simp only [onLine, hlen]
    split_ifs
    · exact h.receive_eq v
    · rfl
  simp only [passFrame, closeFrame, takeLate, List.foldl_cons, List.foldl_nil, f.bits_length, g.bits_length, hlen,
    honLine]

theorem dispatchFrame_of_kind {k : BitVec 4} (h : f.kind = k) (s : State) :
    dispatchFrame f s = dispatchFrame { f with kind := k } s := by
  subst h
  rfl

theorem readAlike_publish (h : f.kind = 1) :
    ReadAlike f ⟨f.destination, f.source, 1, f.tag, f.sequence, f.flags, 0, f.payload⟩ :=
  ⟨rfl, rfl, h, dispatchFrame_of_kind h⟩

theorem readAlike_query (h : f.kind = 2) : ReadAlike f ⟨f.destination, f.source, 2, f.tag, 0, 0, 0, f.payload⟩ :=
  ⟨rfl, rfl, h, dispatchFrame_of_kind h⟩

/-- A frame of a WITHDRAW, SUBSCRIBE or UNSUBSCRIBE with what these kinds read alone. -/
def Frame.named (f : Frame) (k : BitVec 4) : Frame := ⟨f.destination, f.source, k, f.tag, f.sequence, 0, 0, []⟩

theorem readAlike_named {k : BitVec 4} (hk : k = 3 ∨ k = 4 ∨ k = 5) (h : f.kind = k) : ReadAlike f (f.named k) := by
  refine ⟨rfl, rfl, h, fun s => (dispatchFrame_of_kind h s).trans ?_⟩
  rcases hk with rfl | rfl | rfl
  · rfl
  · rfl
  · rfl

/-! ## Requests do not read the line's clock (log 11) -/

/-- The state with `n` bit times of the line more. -/
def State.delayed (n : Nat) (s : State) : State := s.withPort { s.port with lineTime := s.port.lineTime + n }

theorem delayed_record (n : Nat) (s : State) (i : SlotIx) : (s.delayed n).record i = s.record i := rfl
theorem delayed_incarnation (n : Nat) (s : State) (i : SlotIx) : (s.delayed n).incarnation i = s.incarnation i := rfl

/-- An operation does the same whatever the line's clock is, and leaves it. -/
def ClockBlind (F : State → State) : Prop := ∀ n s, F (s.delayed n) = (F s).delayed n

theorem ClockBlind.comp {F G : State → State} (hF : ClockBlind F) (hG : ClockBlind G) : ClockBlind fun s => F (G s) :=
  fun n s => (congrArg F (hG n s)).trans (hF n (G s))

theorem ClockBlind.foldl {α : Type} {F : State → α → State} (h : ∀ a, ClockBlind (F · a)) (l : List α) :
    ClockBlind fun s => l.foldl F s := by
  induction l with
  | nil => exact fun _ _ => rfl
  | cons a l ih => exact ih.comp (h a)

theorem clockBlind_count (k : CounterId) : ClockBlind (State.count k) := fun _ _ => rfl

theorem clockBlind_setMarker (ref : Ref) (a : Addr) (m : Bool) : ClockBlind (setMarker ref a m) := by
  intro n s
  simp only [setMarker, delayed_record, delayed_incarnation]
  cases s.record ref.slot with
  | none => rfl
  | some r =>
    by_cases hpresent : s.incarnation ref.slot = ref.incarnation
    · simp only [hpresent, if_true]
      rfl
    · simp only [hpresent, if_false]

theorem clockBlind_notifyRequest (t : Tag) (ref : Ref) (a : Addr) : ClockBlind (notifyRequest t ref a) := by
  intro n s
  have hjudge : (s.delayed n).judgeNotify ref a = s.judgeNotify ref a := rfl
  simp only [notifyRequest, hjudge]
  cases s.judgeNotify ref a with
  | coalesced => rfl
  | admitted => rfl
  | refused => exact (clockBlind_count _).comp (clockBlind_setMarker ref a true) n s

theorem clockBlind_confirm (a : Addr) (t : Tag) (q : Byte) (c : OutcomeCode) : ClockBlind (confirm a t q c) := by
  intro n s
  have hanswers : (s.delayed n).answers = s.answers := rfl
  simp only [confirm, hanswers]
  split_ifs <;> rfl

theorem clockBlind_countRefusal (c : OutcomeCode) : ClockBlind (countRefusal c) := by
  intro n s
  simp only [countRefusal]
  split_ifs <;> rfl

theorem clockBlind_returnSubscription (i : SlotIx) (a : Addr) : ClockBlind (returnSubscription i a) := by
  intro n s
  simp only [returnSubscription, delayed_record]
  cases s.record i with
  | none => rfl
  | some r => dsimp only; split_ifs <;> rfl

theorem clockBlind_addSubscription (i : SlotIx) (a : Addr) : ClockBlind (addSubscription i a) := by
  intro n s
  simp only [addSubscription, delayed_record]
  cases s.record i <;> rfl

theorem clockBlind_goneRequest (t : Tag) (i : SlotIx) (x : Subscription) : ClockBlind (goneRequest t i · x) :=
  fun n s => (clockBlind_returnSubscription i x.node).comp (clockBlind_notifyRequest t ⟨i, s.incarnation i⟩ x.node) n s

theorem clockBlind_retireSlot (i : SlotIx) : ClockBlind (retireSlot i) := by
  intro n s
  simp only [retireSlot, delayed_record]
  cases s.record i with
  | none => rfl
  | some r =>
    have hgone := ClockBlind.foldl (clockBlind_goneRequest r.tag i) r.subscribers n
      (countDown (zoneOf r.tag) (s.withDirectory (s.directory.filter fun e => e ≠ ⟨r.tag, i⟩)))
    dsimp only at hgone ⊢
    exact congrArg (fun v : State =>
      (bumpChange (zoneOf r.tag) (freeSlot i v)).withLastTouched ⟨i, r.tag, r.revision + 1⟩) hgone

theorem clockBlind_doWithdraw (a : Addr) (t : Tag) (q : Byte) : ClockBlind (doWithdraw a t q) := by
  intro n s
  have hverdict : (s.delayed n).withdrawVerdict a t = s.withdrawVerdict a t := rfl
  simp only [doWithdraw, hverdict]
  cases s.withdrawVerdict a t with
  | error c => exact (clockBlind_confirm a t q c).comp (clockBlind_countRefusal c) n s
  | ok i => exact (clockBlind_retireSlot i).comp (clockBlind_confirm a t q .ok) n s

theorem clockBlind_doSubscribe (a : Addr) (t : Tag) (q : Byte) : ClockBlind (doSubscribe a t q) := by
  intro n s
  have hverdict : (s.delayed n).subscribeVerdict a t = s.subscribeVerdict a t := rfl
  simp only [doSubscribe, hverdict]
  cases s.subscribeVerdict a t with
  | refuse c => exact (clockBlind_confirm a t q c).comp (clockBlind_countRefusal c) n s
  | already => exact clockBlind_confirm a t q .ok n s
  | append i =>
    exact (clockBlind_notifyRequest t ⟨i, s.incarnation i⟩ a).comp
      ((clockBlind_confirm a t q .ok).comp (clockBlind_addSubscription i a)) n s

theorem clockBlind_doUnsubscribe (a : Addr) (t : Tag) (q : Byte) : ClockBlind (doUnsubscribe a t q) := by
  intro n s
  have hfind : (s.delayed n).findRecord t = s.findRecord t := rfl
  simp only [doUnsubscribe, hfind]
  cases s.findRecord t with
  | error c => exact (clockBlind_confirm a t q c).comp (clockBlind_countRefusal c) n s
  | ok x => exact (clockBlind_confirm a t q .ok).comp (clockBlind_returnSubscription x.1 a) n s

theorem clockBlind_receive_named {k : BitVec 4} (hk : k = 3 ∨ k = 4 ∨ k = 5) (f : Frame) :
    ClockBlind (receive (some (f.named k))) := by
  have hdispatch : ClockBlind (dispatchFrame (f.named k)) := by
    rcases hk with rfl | rfl | rfl
    · exact clockBlind_doWithdraw _ _ _
    · exact clockBlind_doSubscribe _ _ _
    · exact clockBlind_doUnsubscribe _ _ _
  intro n s
  have hcheck : (s.delayed n).checkFrame (f.named k) = s.checkFrame (f.named k) := rfl
  simp only [receive, hcheck]
  cases s.checkFrame (f.named k) with
  | bad => rfl
  | ignored => rfl
  | dispatched => exact hdispatch.comp (clockBlind_count .rxGood) n s

/-- A payload that its kind does not read takes its bit times, and nothing else (R118). -/
theorem passFrame_of_named {k : BitVec 4} (hk : k = 3 ∨ k = 4 ∨ k = 5) (h : f.kind = k) (hf : f.payload.length ≤ 8)
    (hreads : s.reads = true) : passFrame f s =
      if s.transmitter = none then (passFrame (f.named k) s).delayed (8 * f.payload.length)
      else passFrame (f.named k) s := by
  have halike := readAlike_named hk h
  have honLine : onLine f = some f := if_pos hf
  have honLine' : onLine (f.named k) = some (f.named k) := if_pos (Nat.zero_le 8)
  have hlength : (f.named k).bits.length = 84 := Frame.bits_length _
  split_ifs with ht
  · have hlistens := State.listens_of_reads hreads ht
    have hlater : ∀ v : State,
        v.withPort { v.port with quietTime := 1, underWay := none, lineTime := v.port.lineTime + f.bits.length + 1 } =
          (v.withPort { v.port with
            quietTime := 1, underWay := none, lineTime := v.port.lineTime + (f.named k).bits.length + 1 }).delayed
            (8 * f.payload.length) := by
      intro v
      simp only [State.delayed, State.withPort, f.bits_length, hlength]
      congr 2
      omega
    simp only [passFrame, if_pos hlistens, closeFrame, honLine, honLine', halike.receive_eq, hlater]
    exact clockBlind_receive_named hk f _ _
  · rw [passFrame, passFrame, State.listens_of_attempt ht, honLine, honLine']
    simp only [hreads, Bool.false_eq_true, if_false, if_true, takeLate, List.foldl_cons, List.foldl_nil,
      halike.receive_eq]

/-- Settles O26: rows of readings one after the other, one bit, and a whole frame, which passes as the row of its kind
does. -/
theorem rawFramesAreTakenByTheirKind : Obligations.RawFramesAreTakenByTheirKind := by
  refine ⟨fun s l m t => exec_frameDropped_append, fun s l m t => exec_frameDropped_append_of_attempt,
    exec_frameDropped_nil, exec_busOnline_eq, fun s b hon hgoing hfree => ?bit, fun f s hf => ?whole⟩
  case bit =>
    have hbit := exec_frameDropped_bit (State.listens_iff.mpr ⟨hon, hgoing, hfree⟩) b
    refine ⟨fun l hframe => hbit.trans ?_, fun hnone hquiet => hbit.trans ?_, fun hnone hquiet => hbit.trans ?_⟩
    · rw [takeBit, hframe, withBit_some]
      rfl
    · rw [takeBit, hnone, withBit_none, if_pos hquiet]
      rfl
    · rw [takeBit, hnone, withBit_none, if_neg (Nat.not_le.mpr hquiet)]
      rfl
  case whole =>
    have hwhole := exec_frameDropped_whole hf s
    have hnamed : ∀ k : BitVec 4, k = 3 ∨ k = 4 ∨ k = 5 → f.kind = k → s.port.state ≠ .offline →
        s.port.stopPending = false → Host.Outcome.next (passFrame f s) = (.next
          (if s.transmitter = none then (passFrame (f.named k) s).delayed (8 * f.payload.length)
          else passFrame (f.named k) s) : Host.Outcome State Fault Refusal) := fun k hk h hon hgoing =>
      congrArg _ (passFrame_of_named hk h hf (State.reads_iff.mpr ⟨hon, hgoing⟩))
    refine ⟨fun h => hwhole.trans ?_, fun h => hwhole.trans ?_,
      fun h hon hgoing => ⟨passFrame (f.named 3) s, rfl, hwhole.trans (hnamed 3 (by decide) h hon hgoing)⟩,
      fun h hon hgoing => ⟨passFrame (f.named 4) s, rfl, hwhole.trans (hnamed 4 (by decide) h hon hgoing)⟩,
      fun h hon hgoing => ⟨passFrame (f.named 5) s, rfl, hwhole.trans (hnamed 5 (by decide) h hon hgoing)⟩⟩
    · exact congrArg Host.Outcome.next ((readAlike_publish h).passFrame_eq rfl s)
    · exact congrArg Host.Outcome.next ((readAlike_query h).passFrame_eq rfl s)

end Sys2Proof.Machine
end

section
/-! PROOF. The host's register accesses (sections 10.1, 10.2, 10.5 and 10.6): staging and submission, the completion
queue and the mailbox, INT#, and what the registers read. -/

namespace Sys2Proof.Machine

variable {s : State}

/-! ## Power-on (R152, R160) -/

theorem exec_reset_host (a : Addr) (rate : BitVec 2) (s : State) :
    ∃ t, exec (.reset a rate) s = .next t ∧ t.host = .reset :=
  ⟨_, rfl, rfl⟩

/-! ## The staging buffer (R152) -/

theorem exec_cmdData_of_room (h : s.host.stagingPointer < 8) (w : Word) : exec (.cmdData w) s = .next
    { s with host := { s.host with
      staging := s.host.staging.set s.host.stagingPointer w h
      stagingPointer := s.host.stagingPointer + 1 } } :=
  congrArg _ (dif_pos h)

theorem exec_cmdData_of_full (h : s.host.stagingPointer = 8) (w : Word) : exec (.cmdData w) s = .next s :=
  congrArg _ (dif_neg (Nat.not_lt.mpr h.ge))

/-! ## Submission (R153) -/

/-- A count of 1 to 8 copies the first so many staged words, whichever of them were written. -/
theorem stagedBlock_of_counted (h : HostUnit) {n : Nat} (h1 : 1 ≤ n) (h8 : n ≤ 8) :
    (h.stagedBlock n).wrongCount = false ∧ (h.stagedBlock n).words.length = n ∧
      ∀ k (hk : k < 8), k < n → (h.stagedBlock n).word k = h.staging[k] := by
  have hblock : h.stagedBlock n = ⟨h.staging.toList.take n, false⟩ := if_pos ⟨h1, h8⟩
  have hlength : (h.staging.toList.take n).length = n := by simpa using h8
  rw [hblock]
  refine ⟨rfl, hlength, fun k hk hkn => ?_⟩
  rw [Block.word, List.getD_eq_getElem _ _ (hlength.symm ▸ hkn), List.getElem_take, Vector.getElem_toList]

/-- Another count copies all eight words, with the mark of a wrong count, and is no command (R155). -/
theorem stagedBlock_of_miscounted (h : HostUnit) {n : Nat} (hn : n = 0 ∨ 8 < n) :
    (h.stagedBlock n).wrongCount = true ∧ (h.stagedBlock n).words = h.staging.toList ∧
      (h.stagedBlock n).command = none := by
  have hblock : h.stagedBlock n = ⟨h.staging.toList, true⟩ := if_neg (by omega)
  rw [hblock]
  exact ⟨rfl, rfl, command_eq_none (.inl rfl)⟩

theorem exec_cmdSubmit_of_room (h : s.host.commands.length < 4) (n : Word) : exec (.cmdSubmit n) s = .next
    { s with host := { s.host with
      stagingPointer := 0
      commands := s.host.commands ++ [s.host.stagedBlock n.toNat] } } :=
  congrArg _ (if_pos h)

theorem exec_cmdSubmit_of_full (h : 4 ≤ s.host.commands.length) (n : Word) : exec (.cmdSubmit n) s = .next
    { s with host := { s.host with
      stagingPointer := 0
      sticky := { s.host.sticky with submitLost := true } } } :=
  congrArg _ (if_neg (Nat.not_lt.mpr h))

/-- Settles O39: by the two cases of the pointer and of the command queue; the bound of the pointer is part of what
every step keeps of the host queues. -/
theorem stagingBuffer : Obligations.StagingBuffer := by
  refine ⟨fun a rate s => ?reset, fun x => ⟨rfl, rfl⟩,
    fun s w => ⟨fun h => exec_cmdData_of_room h w, fun h => exec_cmdData_of_full h w⟩, fun s n => ?submit,
    fun s t hs hstep => (stepKeepsTheHostQueuesSound s t hs hstep).pointer⟩
  case reset =>
    obtain ⟨t, ht, hhost⟩ := exec_reset_host a rate s
    exact ⟨t, ht, by rw [hhost]; rfl, by rw [hhost]; rfl⟩
  case submit =>
    rcases Nat.lt_or_ge s.host.commands.length 4 with hroom | hfull
    · refine ⟨_, exec_cmdSubmit_of_room hroom n, rfl, fun _ h1 h8 => ⟨_, rfl, ?_⟩⟩
      exact (stagedBlock_of_counted s.host h1 h8).2
    · exact ⟨_, exec_cmdSubmit_of_full hfull n, rfl, fun hroom => absurd hroom (Nat.not_lt.mpr hfull)⟩

/-- Settles O40: by the room in the command queue, then by the count. -/
theorem submissionCopiesTheStagedWords : Obligations.SubmissionCopiesTheStagedWords := fun s n =>
  ⟨fun hfull => exec_cmdSubmit_of_full hfull n, fun hroom => ⟨_, exec_cmdSubmit_of_room hroom n,
    stagedBlock_of_counted s.host, stagedBlock_of_miscounted s.host⟩⟩

/-! ## Completions and the mailbox (R151, R156, R157, R161) -/

theorem cplWord_of_nil (h : s.host.completions = []) : s.cplWord = 0 := by
  rw [State.cplWord, h]

theorem cplWord_of_cons {e : Vector Word 8} {es : List (Vector Word 8)} (h : s.host.completions = e :: es) :
    s.cplWord = e[s.host.readPointer.val] := by
  rw [State.cplWord, h]

theorem exec_cplData_of_nil (h : s.host.completions = []) :
    exec .cplData s = .next { s with host := { s.host with data := 0, readPointer := 0 } } := by
  rw [exec, execCplData, cplWord_of_nil h, if_pos h]
  rfl

theorem exec_cplData_of_cons {e : Vector Word 8} {es : List (Vector Word 8)} (h : s.host.completions = e :: es) :
    exec .cplData s = .next { s with host := { s.host with
      data := e[s.host.readPointer.val]
      readPointer := s.host.readPointer + 1 } } := by
  have hne : s.host.completions ≠ [] := h ▸ List.cons_ne_nil e es
  rw [exec, execCplData, cplWord_of_cons h, if_neg hne]
  rfl

theorem exec_cplPop_of_nil (h : s.host.completions = []) (w : Word) : exec (.cplPop w) s = .next s := by
  simp only [exec, execCplPop, h]

theorem exec_cplPop_of_cons {e : Vector Word 8} {es : List (Vector Word 8)} (h : s.host.completions = e :: es)
    (w : Word) :
    exec (.cplPop w) s = .next { s with host := { s.host with completions := es, readPointer := 0 } } := by
  simp only [exec, execCplPop, h]
  rfl

/-- A read of MAINT_MAILBOX gives what stands in the mailbox, or 0, and leaves it empty (R161). -/
theorem exec_maintMailbox (s : State) : exec .maintMailbox s = .next
    { s with
      host := { s.host with data := s.maint.mailbox.getD 0 }
      maint := { s.maint with mailbox := none } } :=
  rfl

/-- Settles O41: by the completion queue and by the mailbox, empty or not. -/
theorem completionAndMailboxAccesses : Obligations.CompletionAndMailboxAccesses := by
  refine fun s => ⟨exec_cplData_of_nil,
    fun e es h => ⟨s.host.readPointer + 1, Fin.val_add _ _, exec_cplData_of_cons h⟩,
    fun w h => exec_cplPop_of_nil h w, fun w e es h => exec_cplPop_of_cons h w, fun c h => ?code, fun h => ?empty,
    fun r w => rfl⟩
  case code => rw [exec_maintMailbox, h, Option.getD_some]
  case empty =>
    rw [exec_maintMailbox, h, Option.getD_none]
    simp only [← h]

/-! ## INT_STATUS, INT_ENABLE and INT# (R159, R160) -/

/-- Bit 0 is the completion queue's, bits 1 to 4 are the sticky bits in their order. -/
theorem intStatus_bits (s : State) :
    (s.intStatus.getLsbD 0 = true ↔ s.host.completions ≠ []) ∧
    s.intStatus.getLsbD 1 = s.host.sticky.freezeExpired ∧ s.intStatus.getLsbD 2 = s.host.sticky.txFault ∧
    s.intStatus.getLsbD 3 = s.host.sticky.attention ∧ s.intStatus.getLsbD 4 = s.host.sticky.submitLost := by
  simp only [State.intStatus, BitVec.getLsbD_append, BitVec.getLsbD_ofBool]
  simp

/-- A register of five bits reads them in its low bits. -/
theorem getLsbD_fiveBits (x : BitVec 5) {k : Nat} (h : k < 5) : (x.setWidth 16).getLsbD k = x.getLsbD k := by
  rw [BitVec.getLsbD_setWidth, decide_eq_true (by omega), Bool.true_and]

theorem hostRead_intStatus_getLsbD (s : State) {k : Nat} (h : k < 5) :
    (s.hostRead 5).getLsbD k = s.intStatus.getLsbD k :=
  getLsbD_fiveBits s.intStatus h

theorem hostRead_intEnable_getLsbD (s : State) {k : Nat} (h : k < 5) :
    (s.hostRead 6).getLsbD k = s.host.enable.getLsbD k :=
  getLsbD_fiveBits s.host.enable h

theorem exec_intEnable (w : Word) (s : State) :
    exec (.intEnable w) s = .next { s with host := { s.host with enable := w.extractLsb' 0 5 } } :=
  rfl

theorem exec_intStatus (w : Word) (s : State) :
    exec (.intStatus w) s = .next { s with host := { s.host with sticky := s.host.sticky.cleared w } } :=
  rfl

theorem intAsserted_iff : s.intAsserted = true ↔
    ∃ k, k < 5 ∧ s.intStatus.getLsbD k = true ∧ s.host.enable.getLsbD k = true := by
  rw [State.intAsserted, decide_eq_true_iff, Ne, BitVec.eq_of_getLsbD_eq_iff]
  simp

/-- Nothing enabled, nothing requested. -/
theorem intAsserted_of_enable_zero (h : s.host.enable = 0) : s.intAsserted = false := by
  have hnone : s.intStatus &&& s.host.enable = 0 := by
    rw [h]
    exact BitVec.and_zero
  exact decide_eq_false (not_not_intro hnone)

/-- Settles O42: bit by bit, and INT# with nothing enabled behind power-on and RESET. -/
theorem interruptEnableAndRequest : Obligations.InterruptEnableAndRequest := by
  refine ⟨fun s w => ⟨_, exec_intEnable w s, rfl, fun k hk => ?enabled⟩, fun s => intAsserted_iff,
    fun x => ⟨rfl, intAsserted_of_enable_zero rfl⟩, fun a rate s => ?reset⟩
  case enabled =>
    have hbit : (w.extractLsb' 0 5).getLsbD k = w.getLsbD k := by
      rw [BitVec.getLsbD_extractLsb', decide_eq_true hk, Bool.true_and, Nat.zero_add]
    exact ⟨hbit, (hostRead_intEnable_getLsbD _ hk).trans hbit⟩
  case reset =>
    obtain ⟨t, ht, hhost⟩ := exec_reset_host a rate s
    have henable : t.host.enable = 0 := by
      rw [hhost]
      rfl
    exact ⟨t, ht, henable, intAsserted_of_enable_zero henable⟩

/-! ## The registers as they read (R151, R156, R158, R161) -/

/-- The fields of STATUS stand where section 10.5 places them. -/
theorem statusWord_fields (s : State) :
    s.statusWord.extractLsb' 0 3 = BitVec.ofNat 3 s.host.commands.length ∧
    s.statusWord.getLsbD 3 = s.host.executing ∧
    s.statusWord.extractLsb' 4 4 = BitVec.ofNat 4 s.host.completions.length ∧
    s.statusWord.extractLsb' 8 2 = BitVec.ofNat 2 s.port.state.number ∧
    (s.statusWord.getLsbD 10 = true ↔ s.maint.mode = .service) ∧
    s.statusWord.getLsbD 11 = s.maint.mailbox.isSome ∧ s.statusWord.extractLsb' 12 4 = 0 := by
  unfold State.statusWord
  refine ⟨BitVec.extractLsb'_append_eq_right, ?executing, ?completions, ?port, ?mode, ?mailbox, ?rest⟩
  case executing | mode | mailbox =>
    simp only [BitVec.getLsbD_append, BitVec.getLsbD_ofBool]
    simp
  case completions =>
    rw [BitVec.extractLsb'_append_eq_of_le (by decide), BitVec.extractLsb'_append_eq_of_le (by decide)]
    exact BitVec.extractLsb'_append_eq_right
  case port =>
    rw [BitVec.extractLsb'_append_eq_of_le (by decide), BitVec.extractLsb'_append_eq_of_le (by decide),
      BitVec.extractLsb'_append_eq_of_le (by decide)]
    exact BitVec.extractLsb'_append_eq_right
  case rest =>
    rw [BitVec.extractLsb'_append_eq_of_le (by decide), BitVec.extractLsb'_append_eq_of_le (by decide),
      BitVec.extractLsb'_append_eq_of_le (by decide), BitVec.extractLsb'_append_eq_of_le (by decide),
      BitVec.extractLsb'_append_eq_of_le (by decide)]
    exact BitVec.extractLsb'_append_eq_left

/-- A written 1 clears its sticky bit, and no write reaches bit 0 (R159). -/
theorem intStatus_cleared (s : State) (w : Word) :
    let t := { s with host := { s.host with sticky := s.host.sticky.cleared w } }
    t.intStatus.getLsbD 0 = s.intStatus.getLsbD 0 ∧
    ∀ k, 1 ≤ k → k < 5 → t.intStatus.getLsbD k = (s.intStatus.getLsbD k && !w.getLsbD k) := by
  intro t
  obtain ⟨h0, h1, h2, h3, h4⟩ := intStatus_bits s
  obtain ⟨g0, g1, g2, g3, g4⟩ := intStatus_bits t
  refine ⟨Bool.eq_iff_iff.mpr (g0.trans h0.symm), fun k hk hk5 => ?_⟩
  match k, hk, hk5 with
  | 1, _, _ => rw [g1, h1]; rfl
  | 2, _, _ => rw [g2, h2]; rfl
  | 3, _, _ => rw [g3, h3]; rfl
  | 4, _, _ => rw [g4, h4]; rfl

/-- Settles O43: STATUS by its fields, INT_STATUS by its bits, the others by what they hold. -/
theorem hostRegistersAsTheyRead : Obligations.HostRegistersAsTheyRead := by
  intro s
  obtain ⟨hcommands, hexecuting, hcompletions, hport, hmode, hmailbox, hrest⟩ := statusWord_fields s
  obtain ⟨h0, h1, h2, h3, h4⟩ := intStatus_bits s
  refine ⟨rfl, rfl, rfl, cplWord_of_nil, fun e es h => cplWord_of_cons h, hcommands, hexecuting, hcompletions, ?port,
    hmode, hmailbox, hrest, ?_, ?_, ?_, ?_, ?_, fun h => ?empty, fun c h => ?code, fun w => ?write⟩
  case port =>
    refine hport.trans ?_
    cases s.port.state <;> rfl
  case empty => exact congrArg (Option.getD · 0) h
  case code => exact congrArg (Option.getD · 0) h
  case write =>
    obtain ⟨hzero, hsticky⟩ := intStatus_cleared s w
    refine ⟨_, exec_intStatus w s, rfl, ?_, fun k hk hk5 => ?_⟩
    · rw [hostRead_intStatus_getLsbD _ (by decide), hostRead_intStatus_getLsbD _ (by decide), hzero]
    · rw [hostRead_intStatus_getLsbD _ hk5, hostRead_intStatus_getLsbD _ hk5, hsticky k hk hk5]
  all_goals rwa [hostRead_intStatus_getLsbD s (by decide)]

end Sys2Proof.Machine
end

section
/-! PROOF. The host commands on settings, mode and counters (R167, R170, R171). -/

namespace Sys2Proof.Machine

variable {s : State} {b : Block}

/-- A taken command completes with what its decision says (R155). -/
theorem takeCommand_of_decided {k : HostKind} {f : Block → State → OutcomeCode × List Word × State}
    {c : OutcomeCode} {ws : List Word} {u : State} (h : s.canTake k b) (hf : f b s = (c, ws, u)) :
    takeCommand k f s = completeCommand b k.entries c ws u := by
  rw [takeCommand_of_canTake h, hf]

/-! ## SET_DEVICE (R166, R167) -/

theorem BitRate.ofCode_code (x : BitRate) : BitRate.ofCode x.code = some x := by
  cases x <;> rfl

theorem BitRate.ofCode_of_large {w : Word} (h : 3 < w.toNat) : BitRate.ofCode w = none := by
  obtain ⟨n, hn⟩ := Nat.exists_eq_add_of_le' h
  rw [BitRate.ofCode, hn]
  rfl

/-- A word out of its range, the bit rate's among them, names no settings. -/
theorem settings_eq_none (h : (b.word 1).toNat = 0 ∨ 62 < (b.word 1).toNat ∨ 3 < (b.word 2).toNat ∨
    (b.word 3).toNat = 0 ∨ 255 < (b.word 3).toNat ∨ (b.word 4).toNat = 0 ∨ 255 < (b.word 4).toNat) :
    b.settings = none := by
  unfold Block.settings
  split
  · rfl
  · rename_i rate hrate
    have hcode : ¬ 3 < (b.word 2).toNat := fun hlarge =>
      Option.some_ne_none rate (hrate.symm.trans (BitRate.ofCode_of_large hlarge))
    exact if_neg (by omega)

theorem settings_eq_some {rate : BitRate} (hrate : b.word 2 = rate.code) (ha : 1 ≤ (b.word 1).toNat)
    (ha' : (b.word 1).toNat ≤ 62) (ht : 1 ≤ (b.word 3).toNat) (ht' : (b.word 3).toNat ≤ 255)
    (hl : 1 ≤ (b.word 4).toNat) (hl' : (b.word 4).toNat ≤ 255) :
    b.settings = some ⟨BitVec.ofNat 6 (b.word 1).toNat, rate, (b.word 3).toNat, (b.word 4).toNat⟩ := by
  rw [Block.settings, hrate, BitRate.ofCode_code]
  exact if_pos ⟨ha, ha', ht, ht', hl, hl'⟩

theorem exec_setDevice_of_none (h : s.canTake .setDevice b) (hx : b.settings = none) :
    exec .setDevice s = .next (completeCommand b 1 .badArgument s.settings.words s) :=
  congrArg _ (takeCommand_of_decided h (by rw [decideSetDevice, hx]))

theorem exec_setDevice_of_active {x : Settings} (h : s.canTake .setDevice b) (hx : b.settings = some x)
    (hport : s.port.state ≠ .offline) :
    exec .setDevice s = .next (completeCommand b 1 .busActive s.settings.words s) :=
  congrArg _ (takeCommand_of_decided h (by simp only [decideSetDevice, hx, if_neg hport]))

theorem exec_setDevice_of_offline {x : Settings} (h : s.canTake .setDevice b) (hx : b.settings = some x)
    (hport : s.port.state = .offline) :
    exec .setDevice s = .next (completeCommand b 1 .ok x.words { s with settings := x }) :=
  congrArg _ (takeCommand_of_decided h (by simp only [decideSetDevice, hx, if_pos hport]; rfl))

/-! ## SET_MAINT_MODE (R171) -/

theorem MaintMode.ofWord_code (m : MaintMode) : MaintMode.ofWord m.code = some m := by
  cases m <;> rfl

theorem MaintMode.ofWord_of_large {w : Word} (h : 1 < w.toNat) : MaintMode.ofWord w = none := by
  obtain ⟨n, hn⟩ := Nat.exists_eq_add_of_le' h
  rw [MaintMode.ofWord, hn]
  rfl

theorem exec_setMaintMode_of_large (h : s.canTake .setMaintMode b) (hw : 1 < (b.word 1).toNat) :
    exec .setMaintMode s = .next (completeCommand b 1 .badArgument [] s) :=
  congrArg _ (takeCommand_of_decided h (by rw [decideSetMaintMode, MaintMode.ofWord_of_large hw]; rfl))

theorem exec_setMaintMode_of_code {m : MaintMode} (h : s.canTake .setMaintMode b) (hw : b.word 1 = m.code) :
    exec .setMaintMode s = .next (completeCommand b 1 .ok [s.maint.mode.code]
      { s with maint := { s.maint with mode := m } }) :=
  congrArg _ (takeCommand_of_decided h (by rw [decideSetMaintMode, hw, MaintMode.ofWord_code]; rfl))

/-- Settles O53: by the settings that the words name, then by the port; and by the mode that the operand names. -/
theorem settingsAndMaintenanceMode : Obligations.SettingsAndMaintenanceMode := by
  refine fun s b => ⟨fun htake => ?device, fun htake => ?mode⟩
  case device =>
    intro code report a t l
    have hcode : code = BitRate.code := funext fun x => by cases x <;> rfl
    have hreport : report = Settings.words := by
      funext x
      simp only [report, hcode]
      rfl
    rw [hreport, hcode]
    refine ⟨fun hbad => exec_setDevice_of_none htake (settings_eq_none hbad),
      fun rate hrate ha ha' ht ht' hl hl' => ?_⟩
    have hx := settings_eq_some hrate ha ha' ht ht' hl hl'
    exact ⟨exec_setDevice_of_active htake hx, fun hport => ⟨_, rfl, exec_setDevice_of_offline htake hx hport⟩⟩
  case mode =>
    intro code
    have hcode : code = MaintMode.code := funext fun x => by cases x <;> rfl
    rw [hcode]
    exact ⟨exec_setMaintMode_of_large htake, fun m => exec_setMaintMode_of_code htake⟩

/-! ## COUNTERS (R170) -/

theorem decideCounters_of_zero (h : b.word 1 = 0) (s : State) :
    decideCounters b s = (.ok, s.counters.report, s) := by
  rw [decideCounters, h]
  rfl

theorem decideCounters_of_one (h : b.word 1 = 1) (s : State) :
    decideCounters b s = (.ok, s.counters.report, s.withCounters .zero) := by
  rw [decideCounters, h]
  rfl

theorem decideCounters_of_ne (h0 : b.word 1 ≠ 0) (h1 : b.word 1 ≠ 1) (s : State) :
    decideCounters b s = (.badArgument, [], s) := by
  unfold decideCounters
  split
  · exact absurd (BitVec.eq_of_toNat_eq ‹_›) h0
  · exact absurd (BitVec.eq_of_toNat_eq ‹_›) h1
  · rfl

/-- Settles O55: by the clear flag. -/
theorem countersAreReportedAndCleared : Obligations.CountersAreReportedAndCleared := fun s _ htake =>
  ⟨fun h => congrArg _ (takeCommand_of_decided htake (decideCounters_of_zero h s)),
    fun h => congrArg _ (takeCommand_of_decided htake (decideCounters_of_one h s)),
    fun h0 h1 => congrArg _ (takeCommand_of_decided htake (decideCounters_of_ne h0 h1 s))⟩

end Sys2Proof.Machine
end

section
/-! PROOF. The requests of the maintenance port that are answered within their own frame end, but for PEEK: no request,
an unknown code, NOP, PEEK_ZONE, WATCH and ATTENTION (sections 11.3 and 11.4). -/

namespace Sys2Proof.Machine

variable {s : State} {f : MaintFrame} {z : ZoneIx}

/-! ## Where the fields of a request stand (section 11.2) -/

theorem requestCode_append (code : Byte) (rest : BitVec 40) : requestCode (code ++ rest) = code :=
  BitVec.extractLsb'_append_eq_left

/-- A frame that opens with a code and 16 bits more, as those of PEEK_ZONE and ATTENTION. -/
theorem wordRequest_fields (code : Byte) (w : Word) (rest : BitVec 24) :
    requestCode (code ++ w ++ rest) = code ∧ requestSlot (code ++ w ++ rest) = w := by
  constructor
  · rw [requestCode, BitVec.extractLsb'_append_eq_of_le (by decide)]
    exact BitVec.extractLsb'_append_eq_left
  · rw [requestSlot, BitVec.extractLsb'_append_eq_of_le (by decide)]
    exact BitVec.extractLsb'_append_eq_right

/-- A frame that opens with a code, 16 bits and a field, as that of WATCH. -/
theorem fieldRequest_fields (code : Byte) (w : Word) (field : Byte) (rest : Word) :
    requestCode (code ++ w ++ field ++ rest) = code ∧ requestField (code ++ w ++ field ++ rest) = field := by
  constructor
  · rw [requestCode, BitVec.extractLsb'_append_eq_of_le (by decide), BitVec.extractLsb'_append_eq_of_le (by decide)]
    exact BitVec.extractLsb'_append_eq_left
  · rw [requestField, BitVec.extractLsb'_append_eq_of_le (by decide)]
    exact BitVec.extractLsb'_append_eq_right

/-- The bits behind the code of a request, taken together. -/
theorem append_word_rest (code : Byte) (w : Word) (rest : BitVec 24) : code ++ w ++ rest = code ++ (w ++ rest) :=
  BitVec.append_assoc

theorem append_field_rest (code : Byte) (w : Word) (field : Byte) (rest : Word) :
    code ++ w ++ field ++ rest = code ++ (w ++ field ++ rest) := by
  have hword : code ++ w ++ field = code ++ (w ++ field) := BitVec.append_assoc
  rw [hword]
  exact BitVec.append_assoc

/-! ## Which frames are taken whole (R172, R184) -/

theorem aligned_codeRequest {code : Byte} (hpos : s.maint.position = 0) (hcode : code.getMsbD 0 = false)
    (rest : BitVec 40) : s.aligned (code ++ rest) :=
  State.aligned_of_zero hpos (by rwa [BitVec.getMsbD_append])

theorem aligned_wordRequest {code : Byte} (hpos : s.maint.position = 0) (hcode : code.getMsbD 0 = false) (w : Word)
    (rest : BitVec 24) : s.aligned (code ++ w ++ rest) :=
  State.aligned_of_zero hpos (by rwa [BitVec.getMsbD_append, BitVec.getMsbD_append])

theorem aligned_fieldRequest {code : Byte} (hpos : s.maint.position = 0) (hcode : code.getMsbD 0 = false) (w : Word)
    (field : Byte) (rest : Word) : s.aligned (code ++ w ++ field ++ rest) :=
  State.aligned_of_zero hpos (by rwa [BitVec.getMsbD_append, BitVec.getMsbD_append, BitVec.getMsbD_append])

/-! ## What a request's frame end does (R174, R175, R177, R178) -/

/-- With no POKE in progress a whole frame is a request. -/
theorem clockFrame_of_request (ha : s.aligned f) (hidle : s.maint.poke = .idle) :
    clockFrame f s = fallingEdge (endRequest f (s.sampled f)) := by
  rw [clockFrame_sampled ha, endFrame, sampled_poke, hidle]

theorem clockFrame_of_answered {code : Byte} {c : OutcomeCode} {d : BitVec 32} (ha : s.aligned f)
    (hidle : s.maint.poke = .idle) (h : endRequest f (s.sampled f) = answerRequest code (c, d) (s.sampled f)) :
    clockFrame f s = s.tookFrame f (c.number ++ code ++ d) .idle := by
  rw [clockFrame_of_request ha hidle, h]
  rfl

theorem endRequest_noRequest (rest : BitVec 40) (s : State) :
    endRequest (0xFF#8 ++ rest) s = setOutput idleFrame .idle s := by
  rw [endRequest, requestCode_append]
  rfl

theorem endRequest_nop (rest : BitVec 40) (s : State) :
    endRequest (0#8 ++ rest) s = answerRequest 0#8 (.ok, 0) s := by
  rw [endRequest, requestCode_append]
  rfl

theorem endRequest_unknown {code : Byte} (h : code ∉ ([0, 1, 2, 3, 4, 5, 0xFF] : List Byte)) (rest : BitVec 40)
    (s : State) : endRequest (code ++ rest) s = answerRequest code (.badArgument, 0) s := by
  have hcode : ∀ known : Byte, known ∈ ([0, 1, 2, 3, 4, 5, 0xFF] : List Byte) → code.toNat ≠ known.toNat :=
    fun known hknown heq => h (BitVec.eq_of_toNat_eq heq ▸ hknown)
  rw [endRequest, requestCode_append]
  split
  · exact absurd ‹_› (hcode 0 (by decide))
  · exact absurd ‹_› (hcode 1 (by decide))
  · exact absurd ‹_› (hcode 2 (by decide))
  · exact absurd ‹_› (hcode 3 (by decide))
  · exact absurd ‹_› (hcode 4 (by decide))
  · exact absurd ‹_› (hcode 5 (by decide))
  · exact absurd ‹_› (hcode 0xFF (by decide))
  · rfl

theorem endRequest_peekZone (zone : Word) (rest : BitVec 24) (s : State) :
    endRequest (2#8 ++ zone ++ rest) s = answerRequest 2#8 (s.peekZoneAnswer zone) s := by
  obtain ⟨hcode, hzone⟩ := wordRequest_fields 2#8 zone rest
  rw [endRequest, hcode, hzone]
  rfl

theorem endRequest_watch (slotBits : Word) (field : Byte) (rest : Word) (s : State) :
    endRequest (3#8 ++ slotBits ++ field ++ rest) s = answerRequest 3#8 (s.watchAnswer field) s := by
  obtain ⟨hcode, hfield⟩ := fieldRequest_fields 3#8 slotBits field rest
  rw [endRequest, hcode, hfield]
  rfl

theorem endRequest_attention (code : Word) (rest : BitVec 24) (s : State) :
    endRequest (4#8 ++ code ++ rest) s = doAttention code s := by
  obtain ⟨hcode, hword⟩ := wordRequest_fields 4#8 code rest
  rw [endRequest, hcode, hword]
  rfl

/-- An ATTENTION code taken into the mailbox (R178). -/
def storeAttention (w : Word) (s : State) : State :=
  raiseAttention (s.withMaint { s.maint with mailbox := some w })

theorem fallingEdge_storeAttention (w : Word) (s : State) :
    fallingEdge (storeAttention w s) = storeAttention w (fallingEdge s) := rfl

theorem doAttention_of_empty (w : Word) (h : s.maint.mailbox = none) :
    doAttention w s = storeAttention w (answerRequest 0x04 (.ok, 0) s) := by
  rw [doAttention, h]
  rfl

theorem doAttention_of_full {c : Word} (w : Word) (h : s.maint.mailbox = some c) :
    doAttention w s = answerRequest 0x04 (.busy, 0) s := by
  rw [doAttention, h]

/-! ## The answers (R175, R177) -/

@[simp] theorem watchAnswer_sampled (field : Byte) : (s.sampled f).watchAnswer field = s.watchAnswer field := rfl

@[simp] theorem peekZoneAnswer_sampled (zone : Word) :
    (s.sampled f).peekZoneAnswer zone = s.peekZoneAnswer zone := rfl

/-- Fields over 1 of WATCH name nothing. -/
theorem watchAnswer_of_large {field : Byte} (h : 1 < field.toNat) : s.watchAnswer field = (.badArgument, 0) := by
  obtain ⟨n, hn⟩ := Nat.exists_eq_add_of_le' h
  rw [State.watchAnswer, hn]
  rfl

theorem peekZoneAnswer_of_large {zone : Word} (h : 15 < zone.toNat) : s.peekZoneAnswer zone = (.badArgument, 0) := by
  rw [State.peekZoneAnswer, zoneOfWord_of_large h]

/-- The data of PEEK_ZONE for an entry of the zone table (R177; bits 31 to 28 by log 24). -/
def Zone.peekData (x : Zone) : BitVec 32 :=
  0#4 ++ BitVec.ofBool (decide (x.status = .active)) ++ BitVec.ofBool (decide (x.admission = .opened)) ++
    BitVec.ofNat 10 x.count ++ x.changeCount

theorem peekZoneAnswer_of_zone {zone : Word} (h : zone.toNat = z.val) :
    s.peekZoneAnswer zone = (.ok, (s.zone z).peekData) := by
  rw [State.peekZoneAnswer, zoneOfWord_of_lt h]
  rfl

theorem peekData_high (x : Zone) : x.peekData.extractLsb' 28 4 = 0 := by
  rw [Zone.peekData, BitVec.extractLsb'_append_eq_of_le (by decide), BitVec.extractLsb'_append_eq_of_le (by decide),
    BitVec.extractLsb'_append_eq_of_le (by decide)]
  exact BitVec.extractLsb'_append_eq_left

theorem peekData_status (x : Zone) : x.peekData.getLsbD 27 = true ↔ x.status = .active := by
  rw [Zone.peekData, BitVec.getLsbD_append, BitVec.getLsbD_append, BitVec.getLsbD_append, BitVec.getLsbD_append]
  simp

theorem peekData_admission (x : Zone) : x.peekData.getLsbD 26 = true ↔ x.admission = .opened := by
  rw [Zone.peekData, BitVec.getLsbD_append, BitVec.getLsbD_append, BitVec.getLsbD_append]
  simp

theorem peekData_count (x : Zone) : x.peekData.extractLsb' 16 10 = BitVec.ofNat 10 x.count := by
  rw [Zone.peekData, BitVec.extractLsb'_append_eq_of_le (by decide)]
  exact BitVec.extractLsb'_append_eq_right

theorem peekData_changeCount (x : Zone) : x.peekData.extractLsb' 0 16 = x.changeCount :=
  BitVec.extractLsb'_append_eq_right

/-! ## The rows -/

theorem exec_watch_of_idle (hpos : s.maint.position = 0) (hidle : s.maint.poke = .idle) {field : Byte}
    {c : OutcomeCode} {d : BitVec 32} (h : s.watchAnswer field = (c, d)) (slotBits rest : Word) :
    exec (.watch slotBits field rest) s = .next
      (s.tookFrame (3#8 ++ (slotBits ++ field ++ rest)) (c.number ++ 3#8 ++ d) .idle) := by
  rw [← append_field_rest]
  refine congrArg _ (clockFrame_of_answered (aligned_fieldRequest hpos rfl slotBits field rest) hidle ?_)
  rw [endRequest_watch, watchAnswer_sampled, h]

theorem exec_attention_of_idle (hpos : s.maint.position = 0) (hidle : s.maint.poke = .idle) (code : Word)
    (rest : BitVec 24) : exec (.attention code rest) s = .next
      (fallingEdge (doAttention code (s.sampled (4#8 ++ (code ++ rest))))) := by
  rw [← append_word_rest, ← endRequest_attention code rest]
  exact congrArg _ (clockFrame_of_request (aligned_wordRequest hpos rfl code rest) hidle)

theorem exec_peekZone_of_idle (hpos : s.maint.position = 0) (hidle : s.maint.poke = .idle) {zone : Word}
    {c : OutcomeCode} {d : BitVec 32} (h : s.peekZoneAnswer zone = (c, d)) (rest : BitVec 24) :
    exec (.peekZone zone rest) s = .next (s.tookFrame (2#8 ++ zone ++ rest) (c.number ++ 2#8 ++ d) .idle) := by
  refine congrArg _ (clockFrame_of_answered (aligned_wordRequest hpos rfl zone rest) hidle ?_)
  rw [endRequest_peekZone, peekZoneAnswer_sampled, h]

/-- Settles O58: by the zone that the operand names. -/
theorem peekZoneReportsTheEntry : Obligations.PeekZoneReportsTheEntry := by
  refine fun s zone rest hpos hidle => ⟨fun hlarge => ?_, fun z hz => ?_⟩
  · exact exec_peekZone_of_idle hpos hidle (peekZoneAnswer_of_large hlarge) rest
  · exact ⟨_, exec_peekZone_of_idle hpos hidle (peekZoneAnswer_of_zone hz) rest, peekData_high _, peekData_status _,
      peekData_admission _, peekData_count _, peekData_changeCount _⟩

/-- Settles O57: by the code of the request, the field of a WATCH, and the mailbox at an ATTENTION. -/
theorem requestsAnsweredAtTheirFrameEnd : Obligations.RequestsAnsweredAtTheirFrameEnd := by
  refine fun s hpos hidle => ⟨fun rest ha => ?noRequest, fun code rest hcode ha => ?unknown, fun rest => ?nop,
    fun slotBits => exec_watch_of_idle hpos hidle rfl slotBits,
    fun slotBits => exec_watch_of_idle hpos hidle rfl slotBits,
    fun slotBits field rest hfield => exec_watch_of_idle hpos hidle (watchAnswer_of_large hfield) slotBits rest,
    fun code rest hmailbox => ?stored, fun code rest c hmailbox => ?busy⟩
  case noRequest =>
    refine congrArg _ ((clockFrame_of_request ha hidle).trans ?_)
    rw [endRequest_noRequest]
    rfl
  case unknown => exact congrArg _ (clockFrame_of_answered ha hidle (endRequest_unknown hcode rest _))
  case nop =>
    exact congrArg _ (clockFrame_of_answered (aligned_codeRequest hpos rfl rest) hidle (endRequest_nop rest _))
  case stored =>
    rw [exec_attention_of_idle hpos hidle, doAttention_of_empty code (by exact hmailbox), fallingEdge_storeAttention]
    rfl
  case busy =>
    rw [exec_attention_of_idle hpos hidle, doAttention_of_full code (by exact hmailbox)]
    rfl

end Sys2Proof.Machine
end

section
/-! PROOF. The edges of MCLK, the alignment recovery and the frame timeout (R172, R173, R183, R184). -/

namespace Sys2Proof.Machine

variable {s : State} {f : MaintFrame}

/-! ## A frame end does not look at the ones count and the levels of the clock -/

@[simp] theorem State.withMaint_record (m : Maint) (i : SlotIx) : (s.withMaint m).record i = s.record i := rfl

@[simp] theorem State.withMaint_incarnation (m : Maint) (i : SlotIx) :
    (s.withMaint m).incarnation i = s.incarnation i := rfl

@[simp] theorem State.withMaint_judgeNotify (m : Maint) (ref : Ref) (n : Addr) :
    (s.withMaint m).judgeNotify ref n = s.judgeNotify ref n := rfl

theorem setMarker_withMaint (m : Maint) (ref : Ref) (n : Addr) (missed : Bool) (s : State) :
    setMarker ref n missed (s.withMaint m) = (setMarker ref n missed s).withMaint m := by
  rw [setMarker, setMarker, State.withMaint_record, State.withMaint_incarnation]
  cases s.record ref.slot with
  | none => rfl
  | some r =>
    dsimp only
    split_ifs
    · rfl
    · rfl

theorem notifyRequest_withMaint (m : Maint) (t : Tag) (ref : Ref) (n : Addr) (s : State) :
    notifyRequest t ref n (s.withMaint m) = (notifyRequest t ref n s).withMaint m := by
  rw [notifyRequest, notifyRequest, State.withMaint_judgeNotify]
  cases s.judgeNotify ref n with
  | coalesced | admitted => rfl
  | refused => exact congrArg (fun u : State => u.count .notifyMissed) (setMarker_withMaint m ref n true s)

theorem foldl_notifyRequest_withMaint (m : Maint) (t : Tag) (ref : Ref) (l : List Subscription) (s : State) :
    l.foldl (fun u x => notifyRequest t ref x.node u) (s.withMaint m) =
      (l.foldl (fun u x => notifyRequest t ref x.node u) s).withMaint m :=
  List.foldl_hom (fun u : State => u.withMaint m) fun u x => notifyRequest_withMaint m t ref x.node u

theorem visibleChange_withMaint (m : Maint) (i : SlotIx) (s : State) :
    visibleChange i (s.withMaint m) = (visibleChange i s).withMaint m := by
  rw [visibleChange, visibleChange, State.withMaint_record]
  cases s.record i with
  | none => rfl
  | some r =>
    refine Eq.trans ?_ (foldl_notifyRequest_withMaint m r.tag ⟨i, s.incarnation i⟩ r.subscribers _)
    rfl

theorem recordStep_withMaint (m : Maint) (i : SlotIx) (g : Record → Record) (s : State) :
    recordStep i g (s.withMaint m) = (recordStep i g s).withMaint m := by
  rw [recordStep, recordStep, State.withMaint_record]
  cases s.record i with
  | none => rfl
  | some r =>
    dsimp only
    split_ifs
    · rfl
    · exact visibleChange_withMaint m i (s.setRecord i (g r))

/-- The port with another ones count, and other levels on MDO and MCLK. -/
def State.atLevels (n : Nat) (mdo mclk : Bool) (s : State) : State :=
  s.withMaint { s.maint with onesCount := n, mdo := mdo, mclk := mclk }

theorem applyStep_atLevels (n : Nat) (d c : Bool) (i : SlotIx) (v : List Byte) (q : Option Byte) (renew : Bool)
    (s : State) : applyStep i v q renew (s.atLevels n d c) = (applyStep i v q renew s).atLevels n d c := by
  have hmaint : (applyStep i v q renew s).maint = s.maint := congrArg Outer.maint (outer_applyStep i v q renew)
  rw [State.atLevels, State.atLevels, hmaint]
  exact recordStep_withMaint _ i _ s

theorem endRequest_atLevels (n : Nat) (d c : Bool) (f : MaintFrame) (s : State) :
    endRequest f (s.atLevels n d c) = (endRequest f s).atLevels n d c := by
  unfold endRequest
  split
  case h_5 =>
    have hmailbox : (s.atLevels n d c).maint.mailbox = s.maint.mailbox := rfl
    rw [doAttention, doAttention, hmailbox]
    cases s.maint.mailbox <;> rfl
  all_goals rfl

/-- What a frame end does, it does whatever the ones count and the levels of the clock (R173). -/
theorem endFrame_atLevels (n : Nat) (d c : Bool) (f : MaintFrame) (s : State) :
    endFrame f (s.atLevels n d c) = (endFrame f s).atLevels n d c := by
  have hpoke : (s.atLevels n d c).maint.poke = s.maint.poke := rfl
  rw [endFrame, endFrame, hpoke]
  cases s.maint.poke with
  | idle => exact endRequest_atLevels n d c f s
  | readBack => rfl
  | decided slot field inc refusal => cases refusal <;> rfl
  | awaitData slot field inc =>
    have hverdict : (s.atLevels n d c).pokeVerdict slot field inc = s.pokeVerdict slot field inc := rfl
    simp only [endPokeData, hverdict]
    cases s.pokeVerdict slot field inc with
    | error code => rfl
    | ok x =>
      exact applyStep_atLevels n d c x.1 (x.2.patched (fieldBase field) (frameData f)) none false
        (setOutput (response .ok pokeCode (fourBytes x.2.processValue (fieldBase field)))
          (.decided slot field inc none) s)

/-! ## Timeouts (R183) -/

theorem State.timedOut_iff : s.timedOut = true ↔ 0 < s.maint.position ∧ s.maint.lastEdge + 2 ≤ s.timeBase := by
  simp [State.timedOut]

theorem exec_frameTimeout_of_due (h : s.timedOut = true) : exec .frameTimeout s = .next (realign s) :=
  congrArg _ (if_pos h)

theorem exec_frameTimeout_of_not_due (h : s.timedOut = false) : exec .frameTimeout s = .next s :=
  congrArg _ (if_neg (Bool.eq_false_iff.mp h))

/-- An edge takes a timeout that is due first. -/
theorem seeEdge_of_timedOut (h : s.timedOut = true) : seeEdge s = seeEdge (realign s) := by
  have hrealigned : (realign s).timedOut = false := State.not_timedOut (.inl rfl)
  rw [seeEdge, seeEdge, h, hrealigned]
  rfl

/-! ## Recoveries (R184) -/

/-- The idle output shows a 1 from its first bit on (R173). -/
theorem fallingEdge_realign (s : State) : fallingEdge (realign s) =
    (realign s).withMaint { (realign s).maint with mdo := true, mclk := false } := by
  have hfirst : idleFrame.getMsbD 0 = true := by decide
  rw [← hfirst]
  rfl

theorem clockEdge_recovers {e : MclkEdge} (ht : s.timedOut = false)
    (hr : 64 ≤ onesAfter s.maint.onesCount e.mdi) :
    clockEdge e s = (realign s).withMaint
      { (realign s).maint with
        lastEdge := s.timeBase
        mclk := !e.falls
        mdo := if e.falls then true else mdoAtEdge s.maint } := by
  rw [clockEdge, seeEdge_of_clocked ht, sampleBit_recovers (by exact hr)]
  cases e.falls with
  | true => exact fallingEdge_realign _
  | false => rfl

/-! ## The edge that ends a frame (R172, R173) -/

/-- The state in which the last edge of a frame comes to its frame end, but for the ones count and the levels of MDO and
MCLK. -/
def State.filled (s : State) : State :=
  s.withMaint { s.maint with position := 0, shift := 0, lastEdge := s.timeBase }

theorem clockEdge_last_filled {e : MclkEdge} (ht : s.timedOut = false) (h : ¬ s.maint.position < 47)
    (hr : ¬ 64 ≤ onesAfter s.maint.onesCount e.mdi) :
    clockEdge e s =
      let u := (endFrame (shiftIn s.maint.shift e.mdi) s.filled).atLevels (onesAfter s.maint.onesCount e.mdi)
        (mdoAtEdge s.maint) true
      if e.falls then fallingEdge u else u := by
  rw [← endFrame_atLevels]
  exact clockEdge_last ht h hr

/-- The same frame end, for a whole frame taken from its first bit with no ones counted before it. -/
theorem clockFrame_filled (f : MaintFrame) (s : State) :
    clockFrame f (s.withMaint { s.maint with position := 0, shift := 0, onesCount := 0 }) =
      fallingEdge ((endFrame f s.filled).atLevels ((frameBits f).foldl onesAfter 0) (s.maint.output.getMsbD 47)
        true) := by
  rw [← endFrame_atLevels]
  exact clockFrame_sampled ⟨rfl, reachesRecovery_short _ _ (by simp [frameBits])⟩

/-- The 48 bits that the last edge completes are taken as a whole frame from its first bit would be, but for the ones
count and the levels of the clock. -/
theorem clockEdge_last_eq_clockFrame {e : MclkEdge} (ht : s.timedOut = false) (h : ¬ s.maint.position < 47)
    (hr : ¬ 64 ≤ onesAfter s.maint.onesCount e.mdi) :
    let t := clockFrame (shiftIn s.maint.shift e.mdi)
      (s.withMaint { s.maint with position := 0, shift := 0, onesCount := 0 })
    clockEdge e s = t.atLevels (onesAfter s.maint.onesCount e.mdi)
      (if e.falls then t.maint.mdo else mdoAtEdge s.maint) (!e.falls) := by
  rw [clockEdge_last_filled ht h hr, clockFrame_filled]
  cases e.falls <;> rfl

/-! ## Frames as their edges (R172; log 13) -/

/-- The port after the first `i` edges of a frame. -/
def State.afterEdges (f : MaintFrame) (s : State) (i : Nat) : State :=
  ((frameBits f).take i).foldl (fun u b => clockEdge ⟨b, true⟩ u) s

theorem afterEdges_succ {i : Nat} (hi : i < 48) :
    s.afterEdges f (i + 1) = clockEdge ⟨f.getMsbD i, true⟩ (s.afterEdges f i) := by
  have hbit : (frameBits f)[i]? = some (f.getMsbD i) := by simp [frameBits, hi]
  rw [State.afterEdges, List.take_add_one, hbit, List.foldl_append]
  rfl

theorem afterEdges_all : s.afterEdges f 48 = clockFrame f s := by
  rw [State.afterEdges, List.take_of_length_le (by simp [frameBits]), clockFrame]

/-- A frame row is its edges, each with its fall. -/
theorem exec_pokeDataFrame_edges (f : MaintFrame) (s : State) : ∃ u : Nat → State, u 0 = s ∧
    (∀ i, i < 48 → exec (.mclkRisingEdge ⟨f.getMsbD i, true⟩) (u i) = .next (u (i + 1))) ∧
    exec (.pokeDataFrame f) s = .next (u 48) :=
  ⟨s.afterEdges f, rfl, fun _ hi => congrArg Host.Outcome.next (afterEdges_succ hi).symm,
    congrArg Host.Outcome.next afterEdges_all.symm⟩

/-- Settles O56: an edge by the timeout that is due before it, the ones count and the bit position; a row of a frame by
its bits. -/
theorem edgesRecoveriesAndTimeouts : Obligations.EdgesRecoveriesAndTimeouts := by
  intro s restarted due shown
  have hclocked : ¬ due → s.timedOut = false := fun hdue => Bool.eq_false_iff.mpr (mt State.timedOut_iff.mp hdue)
  refine ⟨fun hdue => ?timeout, fun hdue => exec_frameTimeout_of_not_due (hclocked hdue), rfl,
    fun falls hdue hones => ?recovery, fun b falls hdue hbit => ?edge, fun f => exec_pokeDataFrame_edges f s,
    fun _ => rfl, fun _ _ => rfl, fun _ => rfl, fun _ _ _ _ => rfl, fun _ _ => rfl, fun _ _ _ => rfl, fun _ _ => rfl,
    fun _ _ _ _ => rfl, fun _ => ⟨rfl, rfl⟩⟩
  case timeout =>
    have ht := State.timedOut_iff.mpr hdue
    refine ⟨exec_frameTimeout_of_due ht, fun e => congrArg Host.Outcome.next ?_⟩
    rw [clockEdge, seeEdge_of_timedOut ht]
    rfl
  case recovery =>
    exact congrArg _ (clockEdge_recovers (e := ⟨true, falls⟩) (hclocked hdue) (Nat.succ_le_succ hones))
  case edge =>
    have hr : ¬ 64 ≤ onesAfter s.maint.onesCount b := by
      rcases hbit with rfl | hones
      · exact nofun
      · have hle := onesAfter_le s.maint.onesCount b
        omega
    refine ⟨shiftIn s.maint.shift b, shiftIn_getLsbD _ _ 0 (by decide), fun k hk hk' => ?_, fun hpos => ?_,
      fun hpos => ⟨_, rfl, ?_⟩⟩
    · rw [shiftIn_getLsbD _ _ _ hk', if_neg (Nat.one_le_iff_ne_zero.mp hk)]
    · exact congrArg _ (clockEdge_within (e := ⟨b, falls⟩) (hclocked hdue) hpos hr)
    · exact congrArg _ (clockEdge_last_eq_clockFrame (e := ⟨b, falls⟩) (hclocked hdue) (Nat.not_lt.mpr hpos.ge) hr)

end Sys2Proof.Machine
end

section
/-! PROOF. A step with a command waiting (2.2; log 1); `step_of_empty` is its counterpart on an empty queue. -/

namespace Sys2Proof.Machine

theorem step_of_front {c : Instr} {s : State} {rest : List Instr} (h : s.pending = c :: rest) :
    step s = exec c (s.withPending rest) := by
  simp only [step, h]

/-- Settles O1: the command taken leaves the queue's rest, and the rest of the state is the same. -/
theorem stepRunsTheFrontCommand : Obligations.StepRunsTheFrontCommand := by
  intro c s rest
  have hleaves : State.withPending { s with pending := c :: rest } rest = { s with pending := rest } := rfl
  rw [step_of_front (s := { s with pending := c :: rest }) rfl, hleaves]

end Sys2Proof.Machine
end

section
/-! PROOF. The moves that every command is made of: the few ways in which records, directory, free-slot queue, zones,
pool and answers change, each with what the rule behind it has checked. The invariants are then proved move by move. -/

namespace Sys2Proof.Machine

/-! ## What the moves speak of -/

/-- The record store, the directory, the zones and the pool. -/
structure Tables where
  slots : Vector Slot 512
  freeQueue : List SlotIx
  directory : List DirEntry
  zones : Vector Zone 16
  poolFree : Nat

def State.tables (s : State) : Tables := ⟨s.slots, s.freeQueue, s.directory, s.zones, s.poolFree⟩

/-- The clock, the straps, and the model's own fields, which only RESET and the part's own turn move. -/
structure Pace where
  timeBase : Nat
  straps : Straps
  choices : Nat
  pending : List Instr

def State.pace (s : State) : Pace := ⟨s.timeBase, s.straps, s.choices, s.pending⟩

/-- What `AnswersSound` speaks of. -/
structure AnswerUnit where
  answers : List Answer
  transmitter : Option Frame
  portState : PortState

def State.answerUnit (s : State) : AnswerUnit := ⟨s.answers, s.transmitter, s.port.state⟩

/-- From `s` to `u` the answer queue stays sound. -/
def KeepsAnswers (s u : State) : Prop := AnswersSound s → AnswersSound u

section

variable {s u v : State}

theorem KeepsAnswers.refl (s : State) : KeepsAnswers s s := id

theorem KeepsAnswers.trans (h : KeepsAnswers s u) (g : KeepsAnswers u v) : KeepsAnswers s v := g ∘ h

theorem AnswersSound.congr (h : AnswersSound s) (hunit : u.answerUnit = s.answerUnit) : AnswersSound u := by
  simp only [State.answerUnit, AnswerUnit.mk.injEq] at hunit
  obtain ⟨ha, ht, hp⟩ := hunit
  exact ⟨ha ▸ h.bounded, ha ▸ h.notifies, ha ▸ h.onePerTriple, by rw [ha, ht]; exact h.started, ha ▸ h.faults,
    by rw [ha, hp]; exact h.offline, by rw [ht, hp]; exact h.online⟩

theorem keepsAnswers_of_unit (h : u.answerUnit = s.answerUnit) : KeepsAnswers s u := fun hs => hs.congr h

theorem KeepsAnswers.unit_trans (g : KeepsAnswers u v) (h : u.answerUnit = s.answerUnit) : KeepsAnswers s v :=
  (keepsAnswers_of_unit h).trans g

theorem KeepsAnswers.trans_unit (g : KeepsAnswers s u) (h : v.answerUnit = u.answerUnit) : KeepsAnswers s v :=
  g.trans (keepsAnswers_of_unit h)

theorem KeepsAnswers.foldl {α : Type} {f : State → α → State} (h : ∀ s a, KeepsAnswers s (f s a)) (l : List α) :
    ∀ s, KeepsAnswers s (l.foldl f s) := by
  induction l with
  | nil => exact .refl
  | cons a l ih => exact fun s => (h s a).trans (ih _)

/-! ## Entries that join the answer queue (R109, R137, R138) -/

/-- An entry joins a queue with room for it; a NOTIFY joins only where none of its triple waits. -/
theorem AnswersSound.join (h : AnswersSound s) {a : Answer} (hstarted : a.started = false) (hfaults : a.faultCount = 0)
    (hroom : s.answers.length < 24) (hport : s.port.state ≠ .offline)
    (hnotify : a.isNotify = true → notifyCount s.answers < 16)
    (hnew : ∀ ref n, a.isWaitingNotify ref n = true → s.waits ref n = false) :
    AnswersSound (s.withAnswers (s.answers ++ [a])) where
  bounded := by simpa using hroom
  notifies := by
    have hold := h.notifies
    simp only [notifyCount, State.withAnswers_answers, List.countP_append, List.countP_singleton] at hold hnotify ⊢
    split_ifs with ha
    · exact hnotify ha
    · exact hold
  onePerTriple ref n := by
    have hold := h.onePerTriple ref n
    simp only [State.withAnswers_answers, List.countP_append, List.countP_singleton]
    split_ifs with ha
    · have hzero : s.answers.countP (Answer.isWaitingNotify ref n) = 0 := by
        rw [List.countP_eq_zero]
        simpa [State.waits] using hnew ref n ha
      omega
    · exact hold
  started := by
    rw [State.withAnswers_answers, List.countP_append, List.countP_singleton, hstarted]
    exact h.started
  faults b hb := by
    rcases List.mem_append.mp hb with hb | hb
    · exact h.faults b hb
    · simp [List.mem_singleton.mp hb, hfaults]
  offline hoff := absurd hoff hport
  online := h.online

theorem keepsAnswers_setMarker (ref : Ref) (n : Addr) (m : Bool) (s : State) : KeepsAnswers s (setMarker ref n m s) := by
  obtain ⟨x, hx⟩ := setMarker_frame ref n m s
  rw [hx]
  exact keepsAnswers_of_unit rfl

theorem keepsAnswers_notifyRequest (t : Tag) (ref : Ref) (n : Addr) (s : State) :
    KeepsAnswers s (notifyRequest t ref n s) := by
  rcases notifyRequest_cases t ref n s with ⟨-, he⟩ | ⟨hwaits, hroom, he⟩ | ⟨-, -, he⟩
  · rw [he]; exact .refl s
  · rw [he]
    simp only [State.noRoom, not_or, not_le] at hroom
    obtain ⟨hnotify, hlength, hport⟩ := hroom
    refine fun hs => hs.join rfl rfl hlength hport (fun _ => hnotify) fun ref' m hm => ?_
    obtain ⟨rfl, hn⟩ : ref = ref' ∧ n = m := by
      unfold freshNotify Answer.isWaitingNotify at hm
      grind
    subst hn
    exact hwaits
  · rw [he]; exact (keepsAnswers_setMarker ref n true s).trans (keepsAnswers_of_unit rfl)

/-- A CONFIRM joins where an entry is free, in a port that is not OFFLINE. -/
theorem keepsAnswers_confirm (hport : s.port.state ≠ .offline) (n : Addr) (t : Tag) (q : Byte) (c : OutcomeCode) :
    KeepsAnswers s (confirm n t q c s) := by
  unfold confirm
  split_ifs with hroom
  · exact fun hs => hs.join rfl rfl hroom hport (fun ha => by simp [Answer.isNotify] at ha)
      fun ref m hm => by simp [Answer.isWaitingNotify] at hm
  · exact keepsAnswers_of_unit rfl

theorem keepsAnswers_returnSubscription (i : SlotIx) (n : Addr) (s : State) :
    KeepsAnswers s (returnSubscription i n s) := by
  unfold returnSubscription
  split
  · split_ifs
    · exact keepsAnswers_of_unit rfl
    · exact .refl s
  · exact .refl s

theorem keepsAnswers_visibleChange (i : SlotIx) (s : State) : KeepsAnswers s (visibleChange i s) := by
  unfold visibleChange
  split
  · exact .refl s
  · rename_i r _
    have hrequest : ∀ (u : State) (x : Subscription),
        KeepsAnswers u (notifyRequest r.tag ⟨i, s.incarnation i⟩ x.node u) := fun u x =>
      keepsAnswers_notifyRequest _ _ x.node u
    exact (KeepsAnswers.foldl hrequest r.subscribers _).unit_trans rfl

theorem keepsAnswers_retireSlot (i : SlotIx) (s : State) : KeepsAnswers s (retireSlot i s) := by
  unfold retireSlot
  split
  · exact .refl s
  · rename_i r _
    have hgone : ∀ (u : State) (x : Subscription), KeepsAnswers u (goneRequest r.tag i u x) := fun u x =>
      KeepsAnswers.trans (keepsAnswers_notifyRequest _ _ _ u) (keepsAnswers_returnSubscription i x.node _)
    have hgones := KeepsAnswers.foldl hgone r.subscribers
      (countDown (zoneOf r.tag) (s.withDirectory (s.directory.filter fun e => e ≠ ⟨r.tag, i⟩)))
    exact (hgones.unit_trans (s := s) rfl).trans_unit rfl

end

/-! ## Moves -/

/-- A change of the record `r`: its tag and the nodes of its subscribers stay; in a steady move it stays sound. -/
structure Edit (steady : Bool) (s : State) (r r' : Record) : Prop where
  tag : r'.tag = r.tag
  nodes : r'.subscribers.map (·.node) = r.subscribers.map (·.node)
  sound : steady = true → TableSound s → RecordSound (s.frozen (zoneOf r.tag)) r →
    RecordSound (s.frozen (zoneOf r.tag)) r'

/-- What SET_ZONE has checked of a zone entry (R47). -/
structure Configures (z : ZoneIx) (x : Zone) (s : State) : Prop where
  kept : x.count = (s.zone z).count ∧ x.changeCount = (s.zone z).changeCount ∧ x.freeze = (s.zone z).freeze
  unused : x.status = .disabled → x.count = 0
  quota : x.count ≤ x.quota
  ranges : x.quota ≤ 512 ∧ x.lease ≤ 6000 ∧ x.grace ≤ 6000
  quotas : (s.setZone z x).quotaSum ≤ 512
  unfrozen : s.frozen z = false

/-- One move. Its number counts visible changes and retirements. The steady moves thaw no zone and leave every record
sound; the others freeze none. -/
inductive Move : Bool → Nat → State → State → Prop
  /-- Nothing of the tables changes. -/
  | outside {s u : State} {steady : Bool} (htables : u.tables = s.tables) (hpace : u.pace = s.pace)
      (hanswers : KeepsAnswers s u) : Move steady 0 s u
  /-- A change that shows nothing (R9). -/
  | edit {s : State} {steady : Bool} {i : SlotIx} {r r' : Record} (hr : s.record i = some r)
      (h : Edit steady s r r') (himage : r'.image = r.image) (hrevision : r'.revision = r.revision)
      (hstate : TableSound s → s.frozen (zoneOf r.tag) = true → r'.state = r.state) :
      Move steady 0 s (s.setRecord i r')
  /-- A visible change, in a zone that is not frozen (R10). -/
  | visible {s : State} {steady : Bool} {i : SlotIx} {r r' : Record} (hr : s.record i = some r)
      (h : Edit steady s r r') (hrevision : r'.revision = r.revision)
      (hunfrozen : TableSound s → s.frozen (zoneOf r.tag) = false) :
      Move steady 1 s (visibleChange i (s.setRecord i r'))
  /-- A retirement, in a zone that is not frozen (R17). -/
  | retire {s : State} {steady : Bool} {i : SlotIx} {r : Record} (hr : s.record i = some r)
      (hunfrozen : TableSound s → s.frozen (zoneOf r.tag) = false) :
      Move steady 1 s (retireSlot i s)
  | subscribe {s : State} {steady : Bool} {i : SlotIx} {r : Record} {n : Addr} (hr : s.record i = some r)
      (hnew : n ∉ r.subscribers.map (·.node)) (hroom : r.subscribers.length < 4) (hpool : 0 < s.poolFree)
      (hnode : validAddress n = true) :
      Move steady 0 s (addSubscription i n s)
  | unsubscribe {s : State} {steady : Bool} (i : SlotIx) (n : Addr) : Move steady 0 s (returnSubscription i n s)
  | configure {s : State} {steady : Bool} {z : ZoneIx} {x : Zone} (h : Configures z x s) : Move steady 0 s (s.setZone z x)
  | freeze {s : State} {z : ZoneIx} (hactive : (s.zone z).status = .active) (d : Nat) :
      Move true 0 s (s.setZone z { s.zone z with freeze := some d })
  | unfreeze {s : State} (z : ZoneIx) : Move false 0 s (unfreeze z s)
  | clear {s : State} : Move false 0 s (clearTable s)

/-- Moves one after the other, with a bound on their numbers. -/
inductive Moves (steady : Bool) : Nat → State → State → Prop
  | refl (s : State) : Moves steady 0 s s
  | snoc {s u v : State} {k l : Nat} (h : Moves steady k s u) (g : Move steady l u v) : Moves steady (k + l) s v
  | weaken {s u : State} {k l : Nat} (h : Moves steady k s u) (hkl : k ≤ l) : Moves steady l s u

section

variable {s u v : State} {steady : Bool} {k l : Nat}

theorem Move.moves (h : Move steady k s u) : Moves steady k s u := by
  simpa using Moves.snoc (.refl s) h

theorem Moves.trans (h : Moves steady k s u) (g : Moves steady l u v) : Moves steady (k + l) s v := by
  induction g with
  | refl => exact h
  | snoc _ g ih => rw [← Nat.add_assoc]; exact (ih h).snoc g
  | weaken _ hkl ih => exact (ih h).weaken (Nat.add_le_add_left hkl _)

theorem Moves.trans_zero (h : Moves steady k s u) (g : Moves steady 0 u v) : Moves steady k s v := h.trans g

theorem Moves.zero_trans (h : Moves steady 0 s u) (g : Moves steady k u v) : Moves steady k s v := by
  simpa using h.trans g

/-- `P` holds along moves when it holds along each. -/
theorem Moves.induct {P : State → State → Prop} (hrefl : ∀ s, P s s) (htrans : ∀ {s u v}, P s u → P u v → P s v)
    (hmove : ∀ {k s u}, Move steady k s u → P s u) (h : Moves steady k s u) : P s u := by
  induction h with
  | refl => exact hrefl _
  | snoc _ g ih => exact htrans ih (hmove g)
  | weaken _ _ ih => exact ih

/-! ## Pace and answers under the moves -/

theorem pace_of_outer (h : u.outer = s.outer) : u.pace = s.pace := by
  simp only [State.outer, Outer.mk.injEq] at h
  simp [State.pace, h]

theorem Move.pace_eq (h : Move steady k s u) : u.pace = s.pace := by
  cases h with
  | outside _ hpace _ => exact hpace
  | edit | configure | freeze | unfreeze | clear => rfl
  | visible hr => exact pace_of_outer ((visibleChange_spec _ (State.record_setRecord_self ..)).outer_eq)
  | retire => exact pace_of_outer (outer_retireSlot _)
  | subscribe => exact pace_of_outer (outer_addSubscription ..)
  | unsubscribe => exact pace_of_outer (outer_returnSubscription ..)

theorem keepsAnswers_clearTable (s : State) : KeepsAnswers s (clearTable s) := fun hs => by
  have hstarted : (fun a : Answer => a.started && !(a.isNotify && !a.started)) = Answer.started := by
    funext a
    cases a.started <;> simp
  have hsub : (clearTable s).answers.Sublist s.answers := List.filter_sublist
  refine ⟨hsub.length_le.trans hs.bounded, (hsub.countP_le).trans hs.notifies,
    fun ref n => (hsub.countP_le).trans (hs.onePerTriple ref n), ?_, fun a ha => hs.faults a (hsub.subset ha),
    fun hoff => ?_, hs.online⟩
  · refine Eq.trans ?_ hs.started
    change (s.answers.filter _).countP _ = _
    rw [List.countP_filter, hstarted]
  · exact List.sublist_nil.mp (hs.offline hoff ▸ hsub)

theorem Move.keepsAnswers (h : Move steady k s u) : KeepsAnswers s u := by
  cases h with
  | outside _ _ hanswers => exact hanswers
  | edit | configure | freeze | unfreeze => exact keepsAnswers_of_unit rfl
  | visible => exact (keepsAnswers_visibleChange _ _).unit_trans rfl
  | retire => exact keepsAnswers_retireSlot _ s
  | subscribe hr => exact keepsAnswers_of_unit (by simp [addSubscription, hr, State.answerUnit])
  | unsubscribe => exact keepsAnswers_returnSubscription _ _ s
  | clear => exact keepsAnswers_clearTable s

end

/-! ## Creation -/

/-- What a creation has checked (R14, R15, R54). -/
structure Births (n : NewRecord) (s : State) : Prop where
  named : n.tag ≠ 0
  active : (s.zone (zoneOf n.tag)).status = .active
  absent : s.lookup n.tag = none
  unfrozen : s.frozen (zoneOf n.tag) = false
  room : (s.zone (zoneOf n.tag)).count < (s.zone (zoneOf n.tag)).quota
  free : s.freeQueue ≠ []
  length : 1 ≤ n.length ∧ n.length ≤ 8
  value : ∀ v, n.value = some v → v.length = n.length
  address : ∀ a, n.producer = .node a → validAddress a = true
  host : n.producer = .host → n.sequence = none

/-- Steady moves with at most one creation among them, and then nothing shows and nothing retires. -/
inductive Took : Nat → State → State → Prop
  | moves {k : Nat} {s u : State} (h : Moves true k s u) : Took k s u
  | birth {k : Nat} {s u v : State} {n : NewRecord} (h : Moves true 0 s v) (hn : Births n v)
      (g : Moves true 0 (createRecord n v) u) : Took k s u

section

variable {s u v : State} {k l : Nat}

theorem Took.refl (s : State) : Took 0 s s := .moves (.refl s)

theorem Took.trans_zero (h : Took k s u) (g : Moves true 0 u v) : Took k s v := by
  cases h with
  | moves h => exact .moves (h.trans_zero g)
  | birth h hn h' => exact .birth h hn (h'.trans_zero g)

theorem Took.weaken (h : Took k s u) (hkl : k ≤ l) : Took l s u := by
  cases h with
  | moves h => exact .moves (h.weaken hkl)
  | birth h hn g => exact .birth h hn g

theorem Moves.zero_took (h : Moves true 0 s u) (g : Took k u v) : Took k s v := by
  cases g with
  | moves g => exact .moves (h.zero_trans g)
  | birth g hn g' => exact .birth (h.trans_zero g) hn g'

end

/-- Any number of them. -/
inductive Course : State → State → Prop
  | refl (s : State) : Course s s
  | snoc {k : Nat} {s u v : State} (h : Course s u) (g : Took k u v) : Course s v

section

variable {s u v : State} {k : Nat}

theorem Course.trans (h : Course s u) (g : Course u v) : Course s v := by
  induction g with
  | refl => exact h
  | snoc _ g ih => exact (ih h).snoc g

theorem Took.course (h : Took k s u) : Course s u := .snoc (.refl s) h

theorem Moves.course (h : Moves true k s u) : Course s u := (Took.moves h).course

/-- `P` holds along a course when it holds along each move and each creation. -/
theorem Course.induct {P : State → State → Prop} (hrefl : ∀ s, P s s) (htrans : ∀ {s u v}, P s u → P u v → P s v)
    (hmove : ∀ {k s u}, Move true k s u → P s u) (hbirth : ∀ {n s}, Births n s → P s (createRecord n s))
    (h : Course s u) : P s u := by
  induction h with
  | refl => exact hrefl _
  | snoc _ g ih =>
    refine htrans ih ?_
    cases g with
    | moves g => exact g.induct hrefl htrans hmove
    | birth g hn g' =>
      exact htrans (htrans (g.induct hrefl htrans hmove) (hbirth hn)) (g'.induct hrefl htrans hmove)

end

end Sys2Proof.Machine
end

section
/-! PROOF. The moves of the operations of the record store, and of the requests from the bus (chapters 1 and 4 to 9). -/

namespace Sys2Proof.Machine

variable {s u v : State} {i : SlotIx} {r r' : Record} {steady : Bool} {k l : Nat}

/-! ## Nothing of the tables -/

theorem moves_outside (htables : u.tables = s.tables) (hpace : u.pace = s.pace) (hanswers : KeepsAnswers s u) :
    Moves steady 0 s u := (Move.outside htables hpace hanswers).moves

theorem moves_beside (htables : u.tables = s.tables) (hpace : u.pace = s.pace) (hunit : u.answerUnit = s.answerUnit) :
    Moves steady 0 s u := moves_outside htables hpace (keepsAnswers_of_unit hunit)

theorem moves_count (c : CounterId) (s : State) : Moves steady 0 s (s.count c) := moves_beside rfl rfl rfl

theorem moves_countRefusal (c : OutcomeCode) (s : State) : Moves steady 0 s (countRefusal c s) := by
  unfold countRefusal
  split_ifs
  · exact moves_count _ s
  · exact .refl s

theorem moves_confirm (hport : s.port.state ≠ .offline) (n : Addr) (t : Tag) (q : Byte) (c : OutcomeCode) :
    Moves steady 0 s (confirm n t q c s) := by
  obtain ⟨a, x, hframe⟩ := confirm_frame n t q c s
  exact moves_outside (by rw [hframe]; rfl) (by rw [hframe]; rfl) (keepsAnswers_confirm hport n t q c)

/-! ## Records -/

theorem moves_edit (hr : s.record i = some r) (h : Edit steady s r r') (himage : r'.image = r.image)
    (hrevision : r'.revision = r.revision)
    (hstate : TableSound s → s.frozen (zoneOf r.tag) = true → r'.state = r.state) :
    Moves steady 0 s (s.setRecord i r') := (Move.edit hr h himage hrevision hstate).moves

/-- Soundness of a record speaks of neither revision, last update nor subscribers. -/
theorem RecordSound.congr {f : Bool} (h : RecordSound f r) (n : Word) (t : Nat) (l : List Subscription) :
    RecordSound f { r with revision := n, lastUpdate := t, subscribers := l } :=
  ⟨h.length, h.process, h.forced, h.node, h.host, h.grace, h.pendingFrozen, h.expire, h.retire⟩

theorem moves_setMarker (ref : Ref) (n : Addr) (m : Bool) (s : State) : Moves steady 0 s (setMarker ref n m s) := by
  unfold setMarker
  split
  · rename_i r hr
    split_ifs
    · refine moves_edit hr ⟨rfl, ?_, fun _ _ h => h.congr _ _ _⟩ rfl rfl fun _ _ => rfl
      simp only [markNode, List.map_map]
      exact List.map_congr_left fun x _ => by simp only [Function.comp_apply]; split_ifs <;> rfl
    · exact .refl s
  · exact .refl s

theorem moves_notifyRequest (t : Tag) (ref : Ref) (n : Addr) (s : State) :
    Moves steady 0 s (notifyRequest t ref n s) := by
  rcases notifyRequest_cases t ref n s with ⟨-, he⟩ | ⟨-, -, he⟩ | ⟨-, -, he⟩
  · rw [he]; exact .refl s
  · exact moves_outside (by rw [he]; rfl) (by rw [he]; rfl) (keepsAnswers_notifyRequest t ref n s)
  · rw [he]; exact (moves_setMarker ref n true s).trans_zero (moves_count _ _)

/-- A step on the record that was edited to `r1` is one change from `r`: a visible one where the image differs. -/
theorem moves_recordStep_setRecord {r1 : Record} {f : Record → Record} (hr : s.record i = some r)
    (himage : r1.image = r.image) (h : Edit steady s r (f r1)) (hrevision : (f r1).revision = r.revision)
    (hunfrozen : TableSound s → s.frozen (zoneOf r.tag) = false) :
    Moves steady 1 s (recordStep i f (s.setRecord i r1)) := by
  simp only [recordStep, State.record_setRecord_self, State.setRecord_setRecord]
  split_ifs with hsame
  · exact (Move.edit hr h (hsame.trans himage) hrevision fun ht hf => by simp [hunfrozen ht] at hf).moves.weaken
      (Nat.zero_le 1)
  · exact (Move.visible hr h hrevision hunfrozen).moves

theorem moves_recordStep {f : Record → Record} (hr : s.record i = some r) (h : Edit steady s r (f r))
    (hrevision : (f r).revision = r.revision) (hunfrozen : TableSound s → s.frozen (zoneOf r.tag) = false) :
    Moves steady 1 s (recordStep i f s) := by
  have hstep := moves_recordStep_setRecord hr rfl h hrevision hunfrozen
  rwa [State.setRecord_record s hr] at hstep

theorem Record.tag_renewed (lease t : Nat) (r : Record) : (r.renewed lease t).tag = r.tag :=
  congrArg Identity.tag (Record.identity_renewed lease t r)

theorem Record.tag_applied (w : List Byte) (q : Option Byte) (t : Nat) (lease : Option Nat) (r : Record) :
    (r.applied w q t lease).tag = r.tag := congrArg Identity.tag (Record.identity_applied w q t lease r)

/-- What a renewal leaves of a record beside its identity (R72). -/
theorem Record.renewed_frame (lease t : Nat) (r : Record) : (r.renewed lease t).subscribers = r.subscribers ∧
    (r.renewed lease t).revision = r.revision ∧ (r.renewed lease t).image = r.image ∧
    (r.renewed lease t).state = r.state := by
  unfold Record.renewed
  split <;> exact ⟨rfl, rfl, rfl, rfl⟩

theorem RecordSound.renewed {f : Bool} (h : RecordSound f r) (lease t : Nat) : RecordSound f (r.renewed lease t) := by
  unfold Record.renewed
  split
  · exact h
  · rename_i a hp
    refine ⟨h.length, h.process, h.forced, h.node, fun hh => by simp [hp] at hh, h.grace, fun hpend => ?_,
      fun hpend => ?_, fun hpend => ?_⟩
    · refine h.pendingFrozen fun hno => hpend ?_
      simp [hno]
    · dsimp only at hpend
      split_ifs at hpend with he
      exact absurd hpend he
    · dsimp only at hpend
      split_ifs at hpend with he
      exact h.retire hpend

theorem Record.applied_frame (w : List Byte) (q : Option Byte) (t : Nat) (lease : Option Nat) (r : Record) :
    (r.applied w q t lease).subscribers = r.subscribers ∧ (r.applied w q t lease).revision = r.revision := by
  unfold Record.applied
  cases lease with
  | none => exact ⟨rfl, rfl⟩
  | some l => exact ⟨(Record.renewed_frame l t _).1, (Record.renewed_frame l t _).2.1⟩

/-- The apply step keeps a record of an unfrozen zone sound; one with a sequence or a renewal is a node's (R58). -/
theorem RecordSound.applied (h : RecordSound false r) {w : List Byte} (hw : w.length = r.length) {q : Option Byte}
    {lease : Option Nat} (hnode : (q = none ∧ lease = none) ∨ ∃ a, r.producer = .node a) (t : Nat) :
    RecordSound false (r.applied w q t lease) := by
  have hpend : r.pendingAge = .noStep := by
    by_contra hne
    simpa using h.pendingFrozen hne
  have hgrace : (if r.state = .stale then none else r.graceDeadline) = none := by
    split_ifs with hs
    · rfl
    · refine h.grace ?_
      cases hstate : r.state with
      | live => rfl
      | stale => exact absurd hstate hs
  have hbase : RecordSound false { r with
      processValue := some w, lastSequence := q.or r.lastSequence, lastUpdate := t, state := .live,
      graceDeadline := if r.state = .stale then none else r.graceDeadline } := by
    refine ⟨h.length, fun x hx => ?_, h.forced, h.node, fun hh => ?_, fun _ => hgrace, h.pendingFrozen,
      fun he => absurd he (by simp [hpend]), fun he => absurd he (by simp [hpend])⟩
    · obtain rfl := Option.some.inj hx
      exact hw
    · obtain ⟨-, hlease, hseq, hno⟩ := h.host hh
      rcases hnode with ⟨rfl, -⟩ | ⟨a, ha⟩
      · exact ⟨rfl, hlease, by simpa using hseq, hno⟩
      · simp [ha] at hh
  unfold Record.applied
  cases lease with
  | none => exact hbase
  | some l =>
    have hrenewed := hbase.renewed l t
    unfold Record.renewed at hrenewed ⊢
    cases hp : r.producer with
    | host => simpa only [hp] using hrenewed
    | node a => simpa only [hp] using hrenewed

theorem edit_applied {w : List Byte} {q : Option Byte} {lease : Option Nat} {t : Nat}
    (h : steady = true → TableSound s → RecordSound (s.frozen (zoneOf r.tag)) r →
      RecordSound (s.frozen (zoneOf r.tag)) (r.applied w q t lease)) :
    Edit steady s r (r.applied w q t lease) :=
  ⟨Record.tag_applied .., by rw [(Record.applied_frame w q t lease r).1], h⟩

theorem moves_applyStep {w : List Byte} {q : Option Byte} {renew : Bool} (hr : s.record i = some r)
    (hunfrozen : TableSound s → s.frozen (zoneOf r.tag) = false)
    (hsound : steady = true → RecordSound false r → w.length = r.length ∧
      ((q = none ∧ renew = false) ∨ ∃ a, r.producer = .node a)) :
    Moves steady 1 s (applyStep i w q renew s) := by
  refine moves_recordStep hr (edit_applied fun hsteady ht h => ?_) (Record.applied_frame ..).2 hunfrozen
  rw [hunfrozen ht] at h ⊢
  obtain ⟨hw, hnode⟩ := hsound hsteady h
  refine h.applied hw (hnode.imp_left fun hnone => ⟨hnone.1, ?_⟩) _
  simp [hnone.2]

theorem moves_renewAlone (i : SlotIx) (s : State) : Moves steady 0 s (renewAlone i s) := by
  unfold renewAlone
  split
  · rename_i r hr
    obtain ⟨hsub, hrev, himage, hstate⟩ := Record.renewed_frame (s.zone (zoneOf r.tag)).lease s.timeBase r
    exact (Move.edit hr ⟨Record.tag_renewed .., by rw [hsub], fun _ _ h => h.renewed _ _⟩ himage hrev
      fun _ _ => hstate).moves
  · exact .refl s

theorem moves_touchUpdate (i : SlotIx) (s : State) : Moves steady 0 s (touchUpdate i s) := by
  unfold touchUpdate
  split
  · rename_i r hr
    exact moves_edit hr ⟨rfl, rfl, fun _ _ h => h.congr _ _ _⟩ rfl rfl fun _ _ => rfl
  · exact .refl s

/-! ## Ageing (chapter 5) -/

theorem RecordSound.dropLease {f : Bool} (h : RecordSound f r) : RecordSound f { r with leaseDeadline := none } :=
  ⟨h.length, h.process, h.forced, h.node,
    fun hh => by
      obtain ⟨hlive, -, hseq, hpend⟩ := h.host hh
      exact ⟨hlive, rfl, hseq, hpend⟩,
    h.grace, h.pendingFrozen, fun he => ⟨(h.expire he).1, rfl⟩, h.retire⟩

theorem RecordSound.dropGrace {f : Bool} (h : RecordSound f r) : RecordSound f { r with graceDeadline := none } :=
  ⟨h.length, h.process, h.forced, h.node, h.host, fun _ => rfl, h.pendingFrozen, h.expire, fun he => ⟨(h.retire he).1, rfl⟩⟩

theorem RecordSound.not_host_of_lease {f : Bool} (h : RecordSound f r) {d : Nat} (hd : r.leaseDeadline = some d) :
    r.producer ≠ .host := fun hh => by
  obtain ⟨-, hlease, -⟩ := h.host hh
  simp [hd] at hlease

theorem moves_leaseExpired (hr : s.record i = some r) (hdue : reached r.leaseDeadline s.timeBase = true) :
    Moves true 1 s (leaseExpired i r s) := by
  obtain ⟨d, hd, -⟩ := reached_iff.mp hdue
  cases hstate : r.state with
  | stale =>
    rw [leaseExpired_of_stale hr hstate]
    refine Moves.weaken (moves_edit hr ⟨rfl, rfl, fun _ _ h => h.dropLease⟩ rfl rfl fun _ _ => rfl) (Nat.zero_le 1)
  | live =>
    cases hf : s.frozen (zoneOf r.tag) with
    | true =>
      rw [leaseExpired_of_frozen hr hstate hf]
      refine Moves.weaken (moves_edit hr ⟨rfl, rfl, fun _ _ h => ?_⟩ rfl rfl fun _ _ => rfl) (Nat.zero_le 1)
      rw [hf] at h ⊢
      exact ⟨h.length, h.process, h.forced, h.node, fun hh => absurd hh (h.not_host_of_lease hd), h.grace,
        fun _ => rfl, fun _ => ⟨hstate, rfl⟩, fun he => by simp at he⟩
    | false =>
      rw [leaseExpired_of_unfrozen hr hstate hf]
      refine moves_recordStep_setRecord hr rfl ⟨rfl, rfl, fun _ _ h => ?_⟩ rfl fun _ => hf
      rw [hf] at h ⊢
      have hpend : r.pendingAge = .noStep := by
        by_contra hne
        simpa using h.pendingFrozen hne
      exact ⟨h.length, h.process, h.forced, h.node, fun hh => absurd hh (h.not_host_of_lease hd),
        fun hl => by simp at hl, h.pendingFrozen, fun he => by simp [hpend] at he, fun he => by simp [hpend] at he⟩

theorem moves_graceExpired (hr : s.record i = some r) (hstale : r.state = .stale) :
    Moves true 1 s (graceExpired i r s) := by
  cases hf : s.frozen (zoneOf r.tag) with
  | true =>
    rw [graceExpired_of_frozen hr hf]
    refine Moves.weaken (moves_edit hr ⟨rfl, rfl, fun _ _ h => ?_⟩ rfl rfl fun _ _ => rfl) (Nat.zero_le 1)
    rw [hf] at h ⊢
    refine ⟨h.length, h.process, h.forced, h.node, fun hh => ?_, fun _ => rfl, fun _ => rfl, fun he => by simp at he,
      fun _ => ⟨hstale, rfl⟩⟩
    obtain ⟨hlive, -⟩ := h.host hh
    simp [hstale] at hlive
  | false =>
    rw [graceExpired_of_unfrozen hr hf]
    have hedit : Moves true 0 s (s.setRecord i { r with graceDeadline := none }) :=
      moves_edit hr ⟨rfl, rfl, fun _ _ h => h.dropGrace⟩ rfl rfl fun _ _ => rfl
    refine hedit.zero_trans (Move.moves (Move.retire (State.record_setRecord_self ..) fun _ => ?_))
    exact hf

/-! ## The thaw (section 6.4) -/

theorem frozen_of_unfrozen (h : s.census.Unfrozen i) (hr : s.record i = some r) : s.frozen (zoneOf r.tag) = false := by
  have hf := h r.identity (census_identity hr)
  exact hf

theorem moves_applyDeferred {e : Deferred} (h : s.census.Unfrozen e.slot) : Moves false 1 s (applyDeferred s e) := by
  unfold applyDeferred
  split_ifs
  · cases hr : s.record e.slot with
    | none =>
      simp only [applyStep, recordStep, hr]
      exact (Moves.refl s).weaken (Nat.zero_le 1)
    | some r => exact moves_applyStep hr (fun _ => frozen_of_unfrozen h hr) (by simp)
  · exact (Moves.refl s).weaken (Nat.zero_le 1)

theorem moves_setPendingAge (i : SlotIx) (p : AgeStep) (s : State) : Moves false 0 s (setPendingAge i p s) := by
  unfold setPendingAge
  split
  · rename_i r hr
    exact moves_edit hr ⟨rfl, rfl, by simp⟩ rfl rfl fun _ _ => rfl
  · exact .refl s

theorem moves_settlePending (h : s.census.Unfrozen i) : Moves false 1 s (settlePending s i) := by
  unfold settlePending
  split
  · exact (Moves.refl s).weaken (Nat.zero_le 1)
  · rename_i r hr
    have hf := frozen_of_unfrozen h hr
    split
    · simp only [setPendingAge, hr]
      exact moves_recordStep_setRecord hr rfl ⟨rfl, rfl, by simp⟩ rfl fun _ => hf
    · exact (Move.retire hr fun _ => hf).moves
    · exact (moves_setPendingAge i _ s).weaken (Nat.zero_le 1)

theorem moves_applyDeferreds (l : List Deferred) : ∀ s : State, (∀ e ∈ l, s.census.Unfrozen e.slot) →
    Moves false l.length s (l.foldl applyDeferred s) := by
  induction l with
  | nil => exact fun s _ => .refl s
  | cons e l ih =>
    intro s h
    obtain ⟨he, hl⟩ := List.forall_mem_cons.mp h
    rw [List.length_cons, Nat.add_comm]
    exact (moves_applyDeferred he).trans (ih _ (by rwa [census_applyDeferred]))

theorem moves_settlePendings (l : List SlotIx) : ∀ s : State, (∀ i ∈ l, s.census.Unfrozen i) →
    Moves false l.length s (l.foldl settlePending s) := by
  induction l with
  | nil => exact fun s _ => .refl s
  | cons i l ih =>
    intro s h
    obtain ⟨hi, hl⟩ := List.forall_mem_cons.mp h
    rw [List.length_cons, Nat.add_comm]
    refine (moves_settlePending hi).trans (ih _ fun j hj y hy => ?_)
    rcases census_settlePending s i with he | ⟨x, -, he⟩ <;> rw [he] at hy ⊢
    · exact hl j hj y hy
    · exact hl j hj y (Census.retired_identity_eq_some.mp hy).2

theorem length_slotsWhere_le (p : Record → Bool) (s : State) : (s.slotsWhere p).length ≤ 512 := by
  refine (List.length_filterMap_le ..).trans ?_
  simp

theorem moves_thawZone (z : ZoneIx) (s : State) :
    ∃ k, (s.deferred.length ≤ 32 → k ≤ 600) ∧ Moves false k s (thawZone z s) := by
  have hcensus := census_applyParked_unfreeze z s
  have happlied : Moves false (s.deferred.filter (s.deferredInZone z)).length s (applyParked z (unfreeze z s)) := by
    have hleft : Moves false 0 s ((unfreeze z s).withDeferred (s.deferred.filter fun e => !s.deferredInZone z e)) :=
      (Move.unfreeze z).moves.trans_zero (moves_beside rfl rfl rfl)
    refine hleft.zero_trans (moves_applyDeferreds _ _ fun e he x hx => ?_)
    obtain ⟨r, hr, rfl⟩ := census_identity_eq_some.mp hx
    have hz : zoneOf r.tag = z := by
      have hin : s.deferredInZone z e = true := (List.mem_filter.mp he).2
      have hrs : s.record e.slot = some r := hr
      simpa [State.deferredInZone, hrs] using hin
    change ((unfreeze z s).zone (zoneOf r.tag)).freeze.isSome = false
    simp [unfreeze, hz]
  have hsettled := moves_settlePendings ((applyParked z (unfreeze z s)).slotsWhere fun r =>
      decide (zoneOf r.tag = z) && decide (r.pendingAge ≠ .noStep)) (applyParked z (unfreeze z s)) fun i hi => by
    obtain ⟨r, hr, hp⟩ := mem_slotsWhere.mp hi
    obtain ⟨hz, -⟩ := Bool.and_eq_true_iff.mp hp
    have hthawed : (applyParked z (unfreeze z s)).frozen z = false :=
      (congrArg (fun c : Census => c.frozen z) hcensus).trans (Function.update_self ..)
    exact census_unfrozen hr (of_decide_eq_true hz ▸ hthawed)
  refine ⟨_, fun hbound => ?_, happlied.trans hsettled⟩
  have hparked := List.length_filter_le (s.deferredInZone z) s.deferred
  have hpending := length_slotsWhere_le (fun r => decide (zoneOf r.tag = z) && decide (r.pendingAge ≠ .noStep))
    (applyParked z (unfreeze z s))
  omega

end Sys2Proof.Machine
end

section
/-! PROOF. The moves of the requests from the bus and of the readings of the line (chapters 4, 7 and 8). -/

namespace Sys2Proof.Machine

variable {s u v : State} {i : SlotIx} {r r' : Record} {k l : Nat} {n : Addr} {t : Tag} {q : Byte} {w : List Byte}

/-! ## What the tables decide -/

theorem record_of_tables (h : u.tables = s.tables) (i : SlotIx) : u.record i = s.record i :=
  State.record_congr (congrArg Tables.slots h) i

theorem zone_of_tables (h : u.tables = s.tables) (z : ZoneIx) : u.zone z = s.zone z :=
  State.zone_congr (congrArg Tables.zones h) z

theorem frozen_of_tables (h : u.tables = s.tables) (z : ZoneIx) : u.frozen z = s.frozen z := by
  rw [State.frozen, zone_of_tables h, State.frozen]

theorem lookup_of_tables (h : u.tables = s.tables) (t : Tag) : u.lookup t = s.lookup t := by
  have hd : u.directory = s.directory := congrArg Tables.directory h
  rw [State.lookup, hd, State.lookup]

theorem Births.congr {x : NewRecord} (h : Births x s) (hu : u.tables = s.tables) : Births x u := by
  have hq : u.freeQueue = s.freeQueue := congrArg Tables.freeQueue hu
  refine ⟨h.named, ?_, ?_, ?_, ?_, ?_, h.length, h.value, h.address, h.host⟩
  · rw [zone_of_tables hu]; exact h.active
  · rw [lookup_of_tables hu]; exact h.absent
  · rw [frozen_of_tables hu]; exact h.unfrozen
  · rw [zone_of_tables hu]; exact h.room
  · rw [hq]; exact h.free

theorem tables_confirm (n : Addr) (t : Tag) (q : Byte) (c : OutcomeCode) (s : State) :
    (confirm n t q c s).tables = s.tables := by
  obtain ⟨a, x, hframe⟩ := confirm_frame n t q c s
  rw [hframe]
  rfl

theorem tables_countRefusal (c : OutcomeCode) (s : State) : (countRefusal c s).tables = s.tables := by
  unfold countRefusal
  split_ifs <;> rfl

/-- The directory finds a record under its tag (R25). -/
theorem TableSound.tag_of_lookup (h : TableSound s) (hl : s.lookup t = some i) (hr : s.record i = some r) :
    r.tag = t := by
  obtain ⟨r1, hr1, htag⟩ := (h.entries t i).mp ((lookup_eq_some_iff h.ascending).mp hl)
  obtain rfl := Option.some.inj (hr.symm.trans hr1)
  exact htag

theorem TableSound.unfrozen_of_lookup (h : TableSound s) (hl : s.lookup t = some i) (hr : s.record i = some r)
    (hf : s.frozen (zoneOf t) = false) : s.frozen (zoneOf r.tag) = false := h.tag_of_lookup hl hr ▸ hf

/-! ## PUBLISH (sections 4.3 and 4.4) -/

/-- A PUBLISH that is applied finds a record of its node in an unfrozen zone, of the value's length (R54 to R56). -/
theorem updateVerdict_eq_apply {j : SlotIx} (h : s.updateVerdict n j r t q w = .apply i) :
    j = i ∧ r.producer = .node n ∧ w.length = r.length ∧ s.frozen (zoneOf t) = false := by
  have hfreeze : s.freezeVerdict j t = .apply i → j = i ∧ s.frozen (zoneOf t) = false := fun h => by
    unfold State.freezeVerdict at h
    split_ifs at h with hf
    exact ⟨PublishVerdict.apply.inj h, by simpa using hf⟩
  unfold State.updateVerdict at h
  split_ifs at h with hp hlen
  have hfound : j = i ∧ s.frozen (zoneOf t) = false := by
    split at h
    · exact hfreeze h
    · split at h
      · cases h
      · cases h
      · exact hfreeze h
  exact ⟨hfound.1, not_not.mp hp, not_not.mp hlen, hfound.2⟩

theorem publishVerdict_eq_apply (h : s.publishVerdict n t q w = .apply i) : ∃ r, s.lookup t = some i ∧
    s.record i = some r ∧ r.producer = .node n ∧ w.length = r.length ∧ s.frozen (zoneOf t) = false := by
  unfold State.publishVerdict at h
  split_ifs at h
  split at h
  · unfold State.creationVerdict at h
    split_ifs at h
  · rename_i j hl
    split at h
    · cases h
    · rename_i r hr
      obtain ⟨rfl, hrest⟩ := updateVerdict_eq_apply h
      exact ⟨r, hl, hr, hrest⟩

theorem updateVerdict_ne_create {j : SlotIx} : s.updateVerdict n j r t q w ≠ .create := by
  have hfreeze : s.freezeVerdict j t ≠ .create := by
    unfold State.freezeVerdict
    split_ifs <;> simp
  unfold State.updateVerdict
  split_ifs
  · simp
  · simp
  · split
    · exact hfreeze
    · split
      · simp
      · simp
      · exact hfreeze

/-- The creation checks of a PUBLISH (R54). -/
theorem publishVerdict_eq_create (h : s.publishVerdict n t q w = .create) (hn : validAddress n = true)
    (hw : w.length ≤ 8) : Births ⟨t, .node n, w.length, some w, some q⟩ s := by
  unfold State.publishVerdict at h
  split_ifs at h with ht hz
  split at h
  · rename_i hl
    unfold State.creationVerdict at h
    split_ifs at h with hadm hf hq hfree hlen
    refine ⟨ht, ?_, hl, by simpa using hf, Nat.lt_of_not_le hq, hfree, ⟨Nat.pos_of_ne_zero hlen, hw⟩,
      fun v hv => ?_, fun a ha => ?_, fun hh => ?_⟩
    · cases hstatus : (s.zone (zoneOf t)).status with
      | active => rfl
      | disabled => exact absurd hstatus hz
    · obtain rfl := Option.some.inj hv
      rfl
    · obtain rfl := Producer.node.inj ha
      exact hn
    · cases hh
  · split at h
    · cases h
    · exact absurd h updateVerdict_ne_create

/-- A decided PUBLISH is carried out on tables that its CONFIRM has left alone (R57). -/
theorem took_act {d : PublishVerdict} (hd : s.publishVerdict n t q w = d) (hu : u.tables = s.tables)
    (hn : validAddress n = true) (hw : w.length ≤ 8) : Took 1 u (d.act n t q w u) := by
  cases d with
  | refuse c => exact (Took.refl u).weaken (Nat.zero_le 1)
  | create =>
    exact .birth (.refl u) ((publishVerdict_eq_create hd hn hw).congr hu) (.refl _)
  | duplicate i =>
    exact .moves (((moves_renewAlone i u).trans_zero (moves_touchUpdate i _)).weaken (Nat.zero_le 1))
  | old => exact .moves ((moves_count _ u).weaken (Nat.zero_le 1))
  | supersede i =>
    have hentry : Moves true 0 u (supersedeEntry i q w u) := moves_beside rfl rfl rfl
    exact .moves ((hentry.trans_zero ((moves_renewAlone i _).trans_zero (moves_count _ _))).weaken (Nat.zero_le 1))
  | park i =>
    have hentry : Moves true 0 u (parkEntry i q w u) := moves_beside rfl rfl rfl
    exact .moves ((hentry.trans_zero (moves_renewAlone i _)).weaken (Nat.zero_le 1))
  | apply i =>
    obtain ⟨r, hl, hr, hp, hlen, hf⟩ := publishVerdict_eq_apply hd
    have hru : u.record i = some r := (record_of_tables hu i).trans hr
    refine .moves (moves_applyStep hru (fun ht => ?_) fun _ _ => ⟨hlen, .inr ⟨n, hp⟩⟩)
    exact ht.unfrozen_of_lookup ((lookup_of_tables hu t).trans hl) hru ((frozen_of_tables hu _).trans hf)

theorem took_doPublish (hport : s.port.state ≠ .offline) (hn : validAddress n = true) (hw : w.length ≤ 8)
    (t : Tag) (q fl : Byte) : Took 1 s (doPublish n t q fl w s) := by
  have hcount := moves_countRefusal (steady := true) (s.publishVerdict n t q w).code s
  have hport' : (countRefusal (s.publishVerdict n t q w).code s).port = s.port :=
    congrArg Outer.port (outer_countRefusal (s := s) _)
  unfold doPublish
  refine Moves.zero_took (u := if wantsConfirm fl then _ else _) ?_ (took_act rfl ?_ hn hw)
  · split_ifs
    · exact hcount.trans_zero (moves_confirm (by rwa [hport']) ..)
    · exact hcount
  · split_ifs
    · rw [tables_confirm, tables_countRefusal]
    · exact tables_countRefusal _ s

/-! ## The other requests (sections 4.5, 7.3, 7.4 and 8.6) -/

theorem moves_refused (hport : s.port.state ≠ .offline) (n : Addr) (t : Tag) (q : Byte) (c : OutcomeCode) :
    Moves true 0 s (confirm n t q c (countRefusal c s)) := by
  have hport' : (countRefusal c s).port = s.port := congrArg Outer.port (outer_countRefusal (s := s) c)
  exact (moves_countRefusal c s).trans_zero (moves_confirm (by rwa [hport']) ..)

theorem moves_doWithdraw (hport : s.port.state ≠ .offline) (n : Addr) (t : Tag) (q : Byte) :
    Moves true 1 s (doWithdraw n t q s) := by
  unfold doWithdraw
  split
  · exact (moves_refused hport n t q _).weaken (Nat.zero_le 1)
  · rename_i i hverdict
    unfold State.withdrawVerdict at hverdict
    split at hverdict
    · cases hverdict
    · rename_i j r hfind
      split_ifs at hverdict with hp hf
      obtain rfl : j = i := Except.ok.inj hverdict
      obtain ⟨hl, hr⟩ := findRecord_eq_ok hfind
      have htables := tables_confirm n t q .ok s
      have hru := (record_of_tables htables j).trans hr
      refine (moves_confirm hport n t q .ok).zero_trans (Move.retire hru fun ht => ?_).moves
      exact ht.unfrozen_of_lookup ((lookup_of_tables htables t).trans hl) hru
        ((frozen_of_tables htables _).trans (by simpa using hf))

theorem not_mem_nodes_of_any {l : List Subscription} (h : l.any (fun x => x.node = n) = false) :
    n ∉ l.map (·.node) := by
  rintro hmem
  obtain ⟨x, hx, rfl⟩ := List.mem_map.mp hmem
  have hno := List.any_eq_false.mp h x hx
  simp at hno

theorem moves_doSubscribe (hport : s.port.state ≠ .offline) (hn : validAddress n = true) (t : Tag) (q : Byte) :
    Moves true 0 s (doSubscribe n t q s) := by
  unfold doSubscribe
  split
  · exact moves_refused hport n t q _
  · exact moves_confirm hport n t q .ok
  · rename_i i hverdict
    unfold State.subscribeVerdict at hverdict
    split at hverdict
    · cases hverdict
    · rename_i j r hfind
      split_ifs at hverdict with hany hroom hpool
      obtain rfl : j = i := SubscribeVerdict.append.inj hverdict
      obtain ⟨-, hr⟩ := findRecord_eq_ok hfind
      have hadd : Moves true 0 s (addSubscription j n s) :=
        (Move.subscribe hr (not_mem_nodes_of_any (by simpa using hany)) (Nat.lt_of_not_le hroom)
          (Nat.pos_of_ne_zero hpool) hn).moves
      have hport' : (addSubscription j n s).port = s.port := congrArg Outer.port (outer_addSubscription (s := s) j n)
      exact (hadd.trans_zero (moves_confirm (by rwa [hport']) n t q .ok)).trans_zero (moves_notifyRequest ..)

theorem moves_doUnsubscribe (hport : s.port.state ≠ .offline) (n : Addr) (t : Tag) (q : Byte) :
    Moves true 0 s (doUnsubscribe n t q s) := by
  unfold doUnsubscribe
  split
  · exact moves_refused hport n t q _
  · rename_i i _ _
    have hport' : (returnSubscription i n s).port = s.port :=
      congrArg Outer.port (outer_returnSubscription (s := s) i n)
    exact (Move.unsubscribe i n).moves.trans_zero (moves_confirm (by rwa [hport']) n t q .ok)

/-- REPLY entries join while there is room for all of them. -/
theorem keepsAnswers_replies (hport : s.port.state ≠ .offline) (l : List Answer)
    (hl : ∀ a ∈ l, a.started = false ∧ a.faultCount = 0 ∧ a.isNotify = false)
    (hroom : s.answers.length + l.length ≤ 24) : KeepsAnswers s (s.withAnswers (s.answers ++ l)) := by
  induction l using List.reverseRecOn with
  | nil => exact keepsAnswers_of_unit (by simp [State.answerUnit])
  | append_singleton l a ih =>
    intro hs
    obtain ⟨hstarted, hfaults, hkind⟩ := hl a (by simp)
    simp only [List.length_append, List.length_singleton] at hroom
    have hold := ih (fun b hb => hl b (by simp [hb])) (by omega) hs
    have hjoined := hold.join (a := a) hstarted hfaults (by simpa using (by omega : s.answers.length + l.length < 24))
      hport (by simp [hkind]) fun ref m hm => by
        unfold Answer.isWaitingNotify at hm
        unfold Answer.isNotify at hkind
        split at hm <;> simp_all
    exact hjoined.congr (by simp [State.answerUnit])

theorem moves_doQuery (hport : s.port.state ≠ .offline) (n : Addr) (p : Tag) (w : List Byte) :
    Moves true 0 s (doQuery n p w s) := by
  rcases Nat.lt_or_ge s.answers.length 24 with hroom | hfull
  · have hone : ∀ last, Moves true 0 s (joinAnswers (.reply none false last true) n p s) := fun last =>
      moves_outside rfl rfl (keepsAnswers_replies hport [_] (by simp [Answer.isNotify]) hroom)
    cases hb : badQuery p w with
    | true => rw [doQuery_bad n hroom hb]; exact hone false
    | false =>
      obtain ⟨hnone, hsome⟩ := doQuery_walk n hroom hb rfl
      by_cases hes : (s.walk p (queryMask w) (queryAfter w) (min (queryLimit w) (24 - s.answers.length))).1 = []
      · rw [hnone hes]; exact hone true
      · rw [hsome hes]
        have hlength := walk_length_le (s := s) (p := p) (m := queryMask w) (a := queryAfter w)
          (n := min (queryLimit w) (24 - s.answers.length)) rfl
        refine moves_outside rfl rfl (keepsAnswers_replies hport _ (fun a ha => ?_) ?_)
        · obtain ⟨x, -, rfl⟩ := List.mem_map.mp ha
          exact ⟨rfl, rfl, rfl⟩
        · rw [List.length_map, List.length_zipIdx]
          omega
  · rw [doQuery_full n p w hfull]
    exact moves_count _ s

/-! ## A received frame (R124 to R126) -/

theorem took_dispatchFrame {f : Frame} (hport : s.port.state ≠ .offline) (hn : validAddress f.source = true)
    (hw : f.payload.length ≤ 8) : Took 1 s (dispatchFrame f s) := by
  unfold dispatchFrame
  split
  · exact took_doPublish hport hn hw ..
  · exact .moves ((moves_doQuery hport ..).weaken (Nat.zero_le 1))
  · exact .moves (moves_doWithdraw hport ..)
  · exact .moves ((moves_doSubscribe hport hn ..).weaken (Nat.zero_le 1))
  · exact .moves ((moves_doUnsubscribe hport ..).weaken (Nat.zero_le 1))
  · exact (Took.refl s).weaken (Nat.zero_le 1)

/-- A frame given to the receiver has at most 8 payload bytes (R118). -/
def Fits (x : Option Frame) : Prop := ∀ f, x = some f → f.payload.length ≤ 8

theorem payloadAt_length (b : List Bool) : ∀ j m, (payloadAt b j m).length = m
  | _, 0 => rfl
  | j, m + 1 => by rw [payloadAt, List.length_cons, payloadAt_length b (j + 8) m]

theorem fits_parseFrame (b : List Bool) : Fits (parseFrame b) := by
  intro f hf
  unfold parseFrame at hf
  dsimp only at hf
  split_ifs at hf with h
  obtain rfl := Option.some.inj hf
  exact (payloadAt_length ..).trans_le h.1

theorem fits_onLine (f : Frame) : Fits (onLine f) := by
  intro g hg
  unfold onLine at hg
  split_ifs at hg with h
  obtain rfl := Option.some.inj hg
  exact h

theorem took_receive {x : Option Frame} (hport : s.port.state ≠ .offline) (hx : Fits x) : Took 1 s (receive x s) := by
  have hcount : ∀ c, Took 1 s (s.count c) := fun c => .moves ((moves_count c s).weaken (Nat.zero_le 1))
  cases x with
  | none => exact hcount .rxBad
  | some f =>
    simp only [receive]
    cases hcheck : s.checkFrame f with
    | bad => exact hcount .rxBad
    | ignored => exact (Took.refl s).weaken (Nat.zero_le 1)
    | dispatched =>
      have hn : validAddress f.source = true := by
        unfold State.checkFrame at hcheck
        split_ifs at hcheck with h
        simp only [not_or] at h
        exact validAddress_iff.mpr ⟨h.1, h.2.1⟩
      exact (moves_count .rxGood s).zero_took (took_dispatchFrame hport hn (hx f rfl))

/-! ## Readings of the line (section 8.1) -/

/-- A change of the port that keeps its state, or brings it from JOINING to ONLINE (R132). -/
theorem moves_withPort {p : Port} (h : p.state = s.port.state ∨ (s.port.state = .joining ∧ p.state = .online)) :
    Moves true 0 s (s.withPort p) := by
  refine moves_outside rfl rfl fun hs => ?_
  rcases h with h | ⟨hold, hnew⟩
  · exact hs.congr (by simp [State.answerUnit, h])
  · exact ⟨hs.bounded, hs.notifies, hs.onePerTriple, hs.started, hs.faults, fun hoff => by simp [hnew] at hoff,
      fun _ => hnew⟩

theorem moves_waitQuiet (n : Nat) (s : State) : Moves true 0 s (waitQuiet n s) := by
  refine moves_withPort ?_
  dsimp only
  split_ifs with h
  · exact .inr ⟨h.1, rfl⟩
  · exact .inl rfl

theorem took_closeFrame {x : Option Frame} (hport : s.port.state ≠ .offline) (hx : Fits x) (n : Nat) :
    Took 1 s (closeFrame n x s) :=
  Moves.zero_took (u := s.withPort { s.port with quietTime := 1, underWay := none, lineTime := s.port.lineTime + n + 1 })
    (moves_withPort (.inl rfl)) (took_receive hport hx)

theorem took_passQuiet (hport : s.port.state ≠ .offline) (n : Nat) : Took 1 s (passQuiet n s) := by
  cases n with
  | zero => exact (Took.refl s).weaken (Nat.zero_le 1)
  | succ n =>
    cases hu : s.port.underWay with
    | none => rw [passQuiet_of_none hu]; exact .moves ((moves_waitQuiet _ s).weaken (Nat.zero_le 1))
    | some l =>
      rw [passQuiet_of_some hu]
      exact (took_closeFrame hport (fits_parseFrame l) 0).trans_zero (moves_waitQuiet ..)

theorem moves_passQuiet (hu : s.port.underWay = none) (n : Nat) : Moves true 0 s (passQuiet n s) := by
  cases n with
  | zero => exact .refl s
  | succ n => rw [passQuiet_of_none hu]; exact moves_waitQuiet ..

theorem moves_takeBit (b : Bool) (s : State) : Moves true 0 s (takeBit b s) := moves_withPort (.inl rfl)

theorem took_readLine (hport : s.port.state ≠ .offline) (x : Reading) : Took 1 s (readLine s x) := by
  cases x with
  | zero | one => exact .moves ((moves_takeBit _ s).weaken (Nat.zero_le 1))
  | quiet => exact took_passQuiet hport 1

theorem State.port_of_listens (h : s.listens = true) : s.port.state ≠ .offline := (State.listens_iff.mp h).1

theorem State.port_of_reads (h : s.reads = true) : s.port.state ≠ .offline := (State.reads_iff.mp h).1

theorem course_readings (rs : List Reading) : ∀ s : State, s.listens = true → Course s (rs.foldl readLine s) := by
  induction rs with
  | nil => exact fun s _ => .refl s
  | cons x rs ih =>
    intro s h
    exact (took_readLine (State.port_of_listens h) x).course.trans (ih _ (listensOn_readLine s x h).1)

theorem course_takeLate (l : List (Option Frame)) (hl : ∀ x ∈ l, Fits x) : ∀ s : State, s.port.state ≠ .offline →
    Course s (takeLate l s) := by
  induction l with
  | nil => exact fun s _ => .refl s
  | cons x l ih =>
    intro s hport
    obtain ⟨hx, hrest⟩ := List.forall_mem_cons.mp hl
    have hport' : (receive x s).port = s.port := congrArg Outer.port (outer_receive (s := s) x)
    exact (took_receive hport hx).course.trans (ih hrest _ (by rwa [hport']))

theorem fits_endedFrames (rs : List Reading) : ∀ (q : Nat) (b : Option (List Bool)), ∀ x ∈ endedFrames q b rs, Fits x := by
  induction rs with
  | nil => simp [endedFrames]
  | cons y rs ih =>
    intro q b x hx
    cases y with
    | quiet =>
      cases b with
      | none => exact ih _ _ x hx
      | some l =>
        rcases List.mem_cons.mp hx with rfl | hx
        · exact fits_parseFrame l
        · exact ih _ _ x hx
    | zero | one =>
      simp only [endedFrames] at hx
      exact ih _ _ x hx

/-- A reading ends no frame, and then moves the line fields of the port alone, or it ends one (R117). -/
theorem readLine_ends (s : State) (x : Reading) :
    (Moves true 0 s (readLine s x) ∧ ∀ rs, endedFrames s.port.quietTime s.port.underWay (x :: rs) =
      endedFrames (readLine s x).port.quietTime (readLine s x).port.underWay rs) ∨
    ∃ y, ∀ rs, endedFrames s.port.quietTime s.port.underWay (x :: rs) =
      y :: endedFrames (readLine s x).port.quietTime (readLine s x).port.underWay rs := by
  cases x with
  | zero | one => exact .inl ⟨moves_takeBit _ s, fun rs => by
      cases hu : s.port.underWay <;> simp [endedFrames, readLine, takeBit, hu]⟩
  | quiet =>
    cases hu : s.port.underWay with
    | none =>
      refine .inl ⟨moves_passQuiet hu 1, fun rs => ?_⟩
      have hread : readLine s .quiet = waitQuiet 1 s := passQuiet_of_none hu 0
      rw [hread]
      simp only [endedFrames, waitQuiet, State.withPort_port, hu]
    | some l =>
      refine .inr ⟨parseFrame l, fun rs => ?_⟩
      rw [readLine_quiet_of_some hu, closeFrame_port]
      rfl

theorem moves_readings (rs : List Reading) : ∀ s : State,
    endedFrames s.port.quietTime s.port.underWay rs = [] → Moves true 0 s (rs.foldl readLine s) := by
  induction rs with
  | nil => exact fun s _ => .refl s
  | cons x rs ih =>
    intro s hnone
    rcases readLine_ends s x with ⟨hmoves, hends⟩ | ⟨y, hends⟩
    · exact hmoves.trans_zero (ih _ ((hends rs).symm.trans hnone))
    · simp [hends rs] at hnone

/-- Readings in which at most one frame ends. -/
theorem took_readings (rs : List Reading) : ∀ s : State, s.listens = true →
    (endedFrames s.port.quietTime s.port.underWay rs).length ≤ 1 → Took 1 s (rs.foldl readLine s) := by
  induction rs with
  | nil => exact fun s _ _ => (Took.refl s).weaken (Nat.zero_le 1)
  | cons x rs ih =>
    intro s hl hone
    rcases readLine_ends s x with ⟨hmoves, hends⟩ | ⟨y, hends⟩
    · exact hmoves.zero_took (ih _ (listensOn_readLine s x hl).1 (hends rs ▸ hone))
    · rw [hends rs, List.length_cons] at hone
      refine (took_readLine (State.port_of_listens hl) x).trans_zero (moves_readings rs _ ?_)
      exact List.length_eq_zero_iff.mp (by omega)

/-- Frames taken in an attempt, at most one of them. -/
theorem took_takeLate {l : List (Option Frame)} (hl : ∀ x ∈ l, Fits x) (hport : s.port.state ≠ .offline)
    (hone : l.length ≤ 1) : Took 1 s (takeLate l s) := by
  match l, hone with
  | [], _ => exact (Took.refl s).weaken (Nat.zero_le 1)
  | [x], _ => exact took_receive hport (hl x (by simp))

theorem course_passFrame (f : Frame) (s : State) : Course s (passFrame f s) := by
  unfold passFrame
  split_ifs with hl hr
  · have hlistens := (listensOn_passQuiet Config.idleBits hl).1
    exact (took_passQuiet (State.port_of_listens hl) _).course.trans
      (took_closeFrame (State.port_of_listens hlistens) (fits_onLine f) _).course
  · exact course_takeLate [_] (by simpa using fits_onLine f) s (State.port_of_reads hr)
  · exact .refl s

/-- A frame that no other frame precedes unended. -/
theorem took_passFrame (f : Frame) (hu : s.listens = true → s.port.underWay = none) : Took 1 s (passFrame f s) := by
  unfold passFrame
  split_ifs with hl hr
  · have hlistens := (listensOn_passQuiet Config.idleBits hl).1
    exact (moves_passQuiet (hu hl) _).zero_took
      (took_closeFrame (State.port_of_listens hlistens) (fits_onLine f) _)
  · exact took_receive (State.port_of_reads hr) (fits_onLine f)
  · exact (Took.refl s).weaken (Nat.zero_le 1)

theorem took_quiet (n : Nat) (s : State) : Took 1 s (if s.listens then passQuiet n s else s) := by
  split_ifs with h
  · exact took_passQuiet (State.port_of_listens h) n
  · exact (Took.refl s).weaken (Nat.zero_le 1)

theorem took_seeReading (x : Reading) (s : State) : Took 1 s (seeReading x s) := by
  unfold seeReading
  split_ifs with h
  · exact took_readLine (State.port_of_listens h) x
  · exact (Took.refl s).weaken (Nat.zero_le 1)

end Sys2Proof.Machine
end

section
/-! PROOF. The moves of attempts, of host commands and of the maintenance port, and so of every command. -/

namespace Sys2Proof.Machine

variable {s u v : State} {i : SlotIx} {r r' : Record} {steady : Bool} {k l : Nat} {a : Answer}

/-! ## The queue of an attempt (chapter 9) -/

theorem AnswersSound.unstarted_of_free (h : AnswersSound s) (ht : s.transmitter = none) :
    ∀ a ∈ s.answers, a.started = false := by
  have hcount := h.started
  rw [ht, Option.isSome_none, if_neg Bool.false_ne_true, List.countP_eq_zero] at hcount
  simpa using hcount

/-- In an attempt the started entry stands between unstarted ones (R140). -/
theorem AnswersSound.split_started (h : AnswersSound s) (ht : s.transmitter.isSome = true)
    (ha : s.startedEntry = some a) : ∃ before after, s.answers = before ++ a :: after ∧ a.started = true ∧
      (∀ x ∈ before, x.started = false) ∧ ∀ x ∈ after, x.started = false := by
  obtain ⟨hstarted, before, after, hsplit, hbefore⟩ := List.find?_eq_some_iff_append.mp ha
  have hcount := h.started
  rw [ht, if_pos rfl, hsplit, List.countP_append, List.countP_cons, if_pos hstarted] at hcount
  have hzero : after.countP (·.started) = 0 := by omega
  exact ⟨before, after, hsplit, hstarted, by simpa using hbefore, by simpa [List.countP_eq_zero] using hzero⟩

/-- Entries leave the queue. -/
theorem AnswersSound.sublist (h : AnswersSound s) {q : List Answer} (hq : q.Sublist s.answers) {x : Option Frame}
    (hstarted : q.countP (·.started) = if x.isSome then 1 else 0)
    (honline : x.isSome = true → s.port.state = .online) : AnswersSound ((s.withAnswers q).withTransmitter x) where
  bounded := hq.length_le.trans h.bounded
  notifies := hq.countP_le.trans h.notifies
  onePerTriple ref n := hq.countP_le.trans (h.onePerTriple ref n)
  started := hstarted
  faults a ha := h.faults a (hq.subset ha)
  offline hoff := List.sublist_nil.mp (h.offline hoff ▸ hq)
  online := honline

/-- The attempt ends with its entry out of the queue (R144). -/
theorem moves_withoutStarted {p : Port} (ht : s.transmitter.isSome = true) (hp : p.state = s.port.state) :
    Moves true 0 s ((withoutStarted (s.withPort p)).withTransmitter none) := by
  refine moves_outside rfl rfl fun hs => ?_
  have hgone : (s.answers.eraseP (·.started)).countP (·.started) = 0 := by
    have hcount := hs.started
    rw [ht, if_pos rfl] at hcount
    obtain ⟨a, ha, hstarted⟩ := List.countP_pos_iff.mp (by omega : 0 < s.answers.countP (·.started))
    obtain ⟨b, before, after, hbefore, hb, hsplit, herase⟩ := List.exists_of_eraseP ha hstarted
    rw [hsplit, List.countP_append, List.countP_cons, if_pos hb] at hcount
    rw [herase, List.countP_append]
    omega
  exact (hs.sublist List.eraseP_sublist (x := none) hgone (by simp)).congr (by simp [State.answerUnit, hp, withoutStarted])

/-- The attempt ends with its entry unstarted in its place, unless another of its triple waits (R113, R145, R146). -/
theorem AnswersSound.returned (h : AnswersSound s) (ht : s.transmitter.isSome = true) (ha : s.startedEntry = some a)
    {n : Nat} (hn : n < 3) (hnew : ∀ ref m, a.body = .notify ref m → s.waits ref a.destination = false) :
    AnswersSound ((unstart n s).withTransmitter none) := by
  obtain ⟨before, after, hsplit, hstarted, hbefore, hafter⟩ := h.split_started ht ha
  have hkeep : ∀ l : List Answer, (∀ x ∈ l, x.started = false) →
      l.map (fun x => if x.started then { x with started := false, faultCount := n } else x) = l := fun l hl =>
    (List.map_congr_left fun x hx => by simp [hl x hx]).trans (List.map_id l)
  have hanswers : (unstart n s).answers = before ++ { a with started := false, faultCount := n } :: after := by
    simp only [unstart, State.withAnswers_answers, hsplit, List.map_append, List.map_cons, hkeep before hbefore,
      hkeep after hafter, hstarted, if_true]
  have hzero : ∀ l : List Answer, (∀ x ∈ l, x.started = false) → l.countP (·.started) = 0 := fun l hl => by
    simpa [List.countP_eq_zero] using hl
  refine ⟨?_, ?_, fun ref m => ?_, ?_, fun x hx => ?_, fun hoff => ?_, fun hsome => by simp at hsome⟩
  · have hbound := h.bounded
    rw [State.withTransmitter_answers, hanswers]
    simpa [hsplit] using hbound
  · have hbound := h.notifies
    rw [State.withTransmitter_answers, hanswers]
    rw [hsplit] at hbound
    simp only [notifyCount, List.countP_append, List.countP_cons] at hbound ⊢
    exact hbound
  · have hold := h.onePerTriple ref m
    rw [State.withTransmitter_answers, hanswers, List.countP_append, List.countP_cons]
    rw [hsplit, List.countP_append, List.countP_cons] at hold
    split_ifs with hwait
    · have hnone : s.waits ref m = false := by
        unfold Answer.isWaitingNotify at hwait
        split at hwait
        · rename_i ref' missed hbody
          obtain ⟨⟨rfl, rfl⟩, -⟩ : (ref' = ref ∧ a.destination = m) ∧ True := by grind
          exact hnew _ _ hbody
        · cases hwait
      have hzero : s.answers.countP (Answer.isWaitingNotify ref m) = 0 := by
        rw [List.countP_eq_zero]
        simpa [State.waits] using hnone
      rw [hsplit, List.countP_append, List.countP_cons] at hzero
      omega
    · omega
  · rw [State.withTransmitter_answers, hanswers, List.countP_append, List.countP_cons, hzero before hbefore,
      hzero after hafter]
    rfl
  · rw [State.withTransmitter_answers, hanswers] at hx
    rcases List.mem_append.mp hx with hx | hx
    · exact h.faults x (by simp [hsplit, hx])
    · rcases List.mem_cons.mp hx with rfl | hx
      · exact hn
      · exact h.faults x (by simp [hsplit, hx])
  · have hempty := h.offline hoff
    simp [hsplit] at hempty

theorem setMarker_withTransmitter (x : Option Frame) (ref : Ref) (n : Addr) (m : Bool) (s : State) :
    (setMarker ref n m s).withTransmitter x = setMarker ref n m (s.withTransmitter x) := by
  have hrecord : (s.withTransmitter x).record ref.slot = s.record ref.slot := rfl
  have hincarnation : (s.withTransmitter x).incarnation ref.slot = s.incarnation ref.slot := rfl
  unfold setMarker
  rw [hrecord, hincarnation]
  split
  · split_ifs <;> rfl
  · rfl

theorem moves_markUnsent (a : Answer) (s : State) : Moves true 0 s (markUnsent s a) := by
  unfold markUnsent
  split
  · exact moves_setMarker ..
  · exact .refl s

theorem markUnsent_withTransmitter (x : Option Frame) (a : Answer) (s : State) :
    (markUnsent s a).withTransmitter x = markUnsent (s.withTransmitter x) a := by
  unfold markUnsent
  split
  · exact setMarker_withTransmitter ..
  · rfl

theorem moves_markUnsents (l : List Answer) : ∀ s : State, Moves true 0 s (l.foldl markUnsent s) := by
  induction l with
  | nil => exact .refl
  | cons a l ih => exact fun s => (moves_markUnsent a s).trans_zero (ih _)

/-- The queue is emptied and the port goes OFFLINE, with the transmitter free (R133). -/
theorem moves_goOffline (h : AnswersSound s → s.transmitter = none) : Moves true 0 s (goOffline s) := by
  obtain ⟨x, hx⟩ := markUnsents_frame s.answers s
  have hgone : goOffline s = ((({ s with slots := x } : State).withAnswers []).withPort
      { s.port with state := .offline, quietTime := 0, stopPending := false, underWay := none, lineTime := 0 }) := by
    simp only [goOffline, discardAll, hx]
  have hmarked : Moves true 0 s { s with slots := x } := hx ▸ moves_markUnsents s.answers s
  rw [hgone]
  refine hmarked.trans_zero (moves_outside rfl rfl fun hs => ?_)
  have hnone : s.transmitter = none := h (hs.congr rfl)
  exact ⟨by simp, by simp [notifyCount], by simp, by simp [hnone], by simp, fun _ => rfl, fun hsome => by simp [hnone] at hsome⟩

theorem moves_completeStop (s : State) : Moves true 0 s (completeStop s) := by
  unfold completeStop
  split
  · exact moves_beside rfl rfl rfl
  · exact moves_beside rfl rfl rfl

theorem moves_endAttempt (s : State) : Moves true 0 (s.withTransmitter none) (endAttempt s) := by
  unfold endAttempt
  dsimp only
  split_ifs
  · exact (moves_goOffline fun _ => rfl).trans_zero (moves_completeStop _)
  · exact .refl _

/-! ### Attempt ends (section 9.5) -/

/-- LOST and FAULT short of the limit: the entry returns, and the attempt ends (R113, R145, R146). -/
theorem moves_returnEntry {n : Nat} (ht : s.transmitter.isSome = true) (ha : s.startedEntry = some a)
    (hn : AnswersSound s → n < 3) : Moves true 0 s (endAttempt (returnEntry a n s)) := by
  refine Moves.trans_zero ?_ (moves_endAttempt _)
  have hunstart : (∀ ref m, a.body = .notify ref m → s.waits ref a.destination = false) →
      Moves true 0 s ((unstart n s).withTransmitter none) := fun hnew =>
    moves_outside rfl rfl fun hs => hs.returned ht ha (hn hs) hnew
  unfold returnEntry
  split
  · rename_i ref m hbody
    split_ifs with hwaits
    · have hout := moves_withoutStarted (p := s.port) ht rfl
      unfold passOnMissed
      split_ifs
      · rw [setMarker_withTransmitter]
        exact hout.trans_zero (moves_setMarker ..)
      · exact hout
    · refine hunstart fun ref' m' hbody' => ?_
      obtain ⟨rfl, rfl⟩ := AnswerBody.notify.inj (hbody.symm.trans hbody')
      simpa [State.waits] using hwaits
  · rename_i hbody
    exact hunstart fun ref m hnotify => absurd hnotify (hbody ref m)

/-- Without a started entry there is no attempt to end (R140). -/
theorem moves_endAttempt_of_none (ht : s.transmitter.isSome = true) (ha : s.startedEntry = none) :
    Moves true 0 s (endAttempt s) := by
  refine Moves.trans_zero (u := s.withTransmitter none) (moves_outside rfl rfl fun hs => ?_) (moves_endAttempt s)
  have hcount := hs.started
  have hzero : s.answers.countP (·.started) = 0 := List.countP_eq_zero.mpr (List.find?_eq_none.mp ha)
  simp [ht, hzero] at hcount

theorem moves_loseAttempt (ht : s.transmitter.isSome = true) : Moves true 0 s (loseAttempt s) := by
  unfold loseAttempt
  split
  · rename_i hnone
    exact moves_endAttempt_of_none ht hnone
  · rename_i a ha
    exact moves_returnEntry ht ha fun hs => hs.faults a (List.mem_of_find?_eq_some ha)

theorem moves_faultAttempt (ht : s.transmitter.isSome = true) : Moves true 0 s (faultAttempt s) := by
  unfold faultAttempt
  split
  · rename_i hnone
    exact moves_endAttempt_of_none ht hnone
  · rename_i a ha
    split_ifs with hfaults
    · exact moves_returnEntry ht ha fun _ => hfaults
    · refine Moves.trans_zero ?_ (moves_endAttempt _)
      have hcommute : (raiseTxFault ((markUnsent (withoutStarted s) a).count .txFaults)).withTransmitter none =
          raiseTxFault ((markUnsent ((withoutStarted s).withTransmitter none) a).count .txFaults) := by
        rw [← markUnsent_withTransmitter]
        rfl
      rw [hcommute]
      exact ((moves_withoutStarted (p := s.port) ht rfl).trans_zero (moves_markUnsent a _)).trans_zero
        (moves_beside rfl rfl rfl)

/-! ### Attempt start (section 9.4) -/

theorem moves_clearTaken (a : Answer) (s : State) : Moves true 0 s (clearTaken a s) := by
  unfold clearTaken
  split
  · exact moves_setMarker ..
  · exact .refl s

theorem clearTaken_frame (a : Answer) (s : State) : ∃ x, clearTaken a s = { s with slots := x } := by
  unfold clearTaken
  split
  · exact setMarker_frame ..
  · exact ⟨s.slots, rfl⟩

theorem takeMissed_frame (a : Answer) (s : State) : (s.takeMissed a).isNotify = a.isNotify ∧
    (s.takeMissed a).faultCount = a.faultCount := by
  unfold State.takeMissed
  split
  · rename_i ref m hbody
    simp [Answer.isNotify, hbody]
  · exact ⟨rfl, rfl⟩

/-- An unstarted entry is started in its place, with the transmitter in an attempt (R142). -/
theorem AnswersSound.startEntry (h : AnswersSound s) (ht : s.transmitter = none) (hport : s.port.state = .online)
    (hk : s.answers[k]? = some a) {b : Answer} (hstarted : b.started = true) (hkind : b.isNotify = a.isNotify)
    (hfaults : b.faultCount = a.faultCount) (f : Frame) :
    AnswersSound ((s.withAnswers (s.answers.set k b)).withTransmitter (some f)) := by
  obtain ⟨hlt, rfl⟩ := List.getElem?_eq_some_iff.mp hk
  have hmem := List.getElem_mem hlt
  have hfree := h.unstarted_of_free ht
  refine ⟨?_, ?_, fun ref n => ?_, ?_, fun x hx => ?_, fun hoff => ?_, fun _ => hport⟩
  · simpa using h.bounded
  · have hbound := h.notifies
    simp only [notifyCount, State.withTransmitter_answers, State.withAnswers_answers, List.countP_set hlt, hkind]
      at hbound ⊢
    split_ifs with hnotify
    · have hpos : 0 < s.answers.countP Answer.isNotify := List.countP_pos_iff.mpr ⟨_, hmem, hnotify⟩
      omega
    · omega
  · have hold := h.onePerTriple ref n
    have hwait : b.isWaitingNotify ref n = false := by
      unfold Answer.isWaitingNotify
      split <;> simp [hstarted]
    simp only [State.withTransmitter_answers, State.withAnswers_answers, List.countP_set hlt, hwait]
    simp only [Bool.false_eq_true, if_false]
    omega
  · have hzero : s.answers.countP (·.started) = 0 := by simpa [List.countP_eq_zero] using hfree
    simp [List.countP_set hlt, hzero, hstarted]
  · rcases List.mem_or_eq_of_mem_set hx with hx | rfl
    · exact h.faults x hx
    · rw [hfaults]; exact h.faults _ hmem
  · simp [hport] at hoff

theorem moves_startAttempt (n : Nat) : ∀ s : State, s.transmitter = none → s.port.state = .online →
    Moves true 0 s (startAttempt n s) := by
  induction n with
  | zero => exact fun s _ _ => .refl s
  | succ n ih =>
    intro s ht hport
    rw [startAttempt]
    split
    · exact .refl s
    · rename_i a ha
      split_ifs
      · have houter : (expireEntry (candidatePlace s.answers) a s).outer = s.outer := outer_expireEntry _ a
        have herased : Moves true 0 s (s.withAnswers (s.answers.eraseIdx (candidatePlace s.answers))) := by
          refine moves_outside rfl rfl fun hs => ?_
          have hsub := List.eraseIdx_sublist s.answers (candidatePlace s.answers)
          have hzero : (s.answers.eraseIdx (candidatePlace s.answers)).countP (·.started) = 0 :=
            List.countP_eq_zero.mpr fun b hb => by simpa using hs.unstarted_of_free ht b (hsub.subset hb)
          exact (hs.sublist hsub (x := none) hzero (by simp)).congr (by simp [State.answerUnit, ht])
        refine Moves.trans_zero (herased.trans_zero ((moves_markUnsent a _).trans_zero (moves_count _ _))) (ih _ ?_ ?_)
        · exact (congrArg Outer.transmitter houter).trans ht
        · exact (congrArg (fun x : Outer => x.port.state) houter).trans hport
      · refine (moves_clearTaken a s).trans_zero ?_
        obtain ⟨x, hx⟩ := clearTaken_frame a s
        obtain ⟨hkind, hfaults⟩ := takeMissed_frame a s
        rw [startEntry, hx]
        exact moves_outside rfl rfl fun hs => hs.startEntry (b := { s.takeMissed a with started := true }) ht hport ha rfl
          hkind hfaults _

theorem moves_tryAttempt (s : State) : Moves true 0 s (tryAttempt s) := by
  unfold tryAttempt
  split_ifs with h
  · obtain ⟨ht, hport, -⟩ := State.mayAttempt_iff.mp h
    exact moves_startAttempt _ s ht hport
  · exact .refl s

/-! ## Host commands (chapter 10) -/

variable {kind : HostKind} {f : Block → State → OutcomeCode × List Word × State}

theorem moves_completeCommand (b : Block) (n : Nat) (c : OutcomeCode) (ws : List Word) (s : State) :
    Moves steady 0 s (completeCommand b n c ws s) := moves_beside rfl rfl rfl

theorem moves_takeCommand (h : ∀ b, Moves steady k s (f b s).2.2) : Moves steady k s (takeCommand kind f s) := by
  unfold takeCommand
  split
  · exact (Moves.refl s).weaken (Nat.zero_le k)
  · split_ifs
    · exact (h _).trans_zero (moves_completeCommand ..)
    · exact (Moves.refl s).weaken (Nat.zero_le k)

theorem births_of_createVerdict {b : Block} (h : s.createVerdict b.length b.producer b.tag = .ok) :
    Births ⟨b.tag, Producer.ofNumber b.producer, b.length,
      if b.words.length = 8 then some b.value else none, none⟩ s := by
  unfold State.createVerdict at h
  split_ifs at h with hrange htag hz hlookup hf hq hfree
  simp only [not_or, Nat.not_lt] at hrange
  obtain ⟨hlow, hhigh, hproducer⟩ := hrange
  refine ⟨htag, ?_, by simpa using hlookup, by simpa using hf, Nat.lt_of_not_le hq, hfree, ⟨hlow, hhigh⟩,
    fun v hv => ?_, fun a ha => ?_, fun _ => rfl⟩
  · cases hstatus : (s.zone (zoneOf b.tag)).status with
    | active => rfl
    | disabled => exact absurd hstatus hz
  · dsimp only at hv
    split_ifs at hv
    obtain rfl := Option.some.inj hv
    simp only [Block.value, List.length_take, Block.bytes, List.length_cons, List.length_nil]
    omega
  · dsimp only [Producer.ofNumber] at ha
    split_ifs at ha with hzero
    obtain rfl := Producer.node.inj ha
    refine validAddress_iff.mpr ⟨fun he => ?_, fun he => ?_⟩ <;>
      · have hnat := congrArg BitVec.toNat he
        simp at hnat
        omega

theorem took_create (s : State) : Took 0 s (takeCommand .create decideCreate s) := by
  unfold takeCommand
  split
  · exact .refl s
  · rename_i b _
    split_ifs
    · unfold decideCreate
      split
      · rename_i hverdict _
        exact .birth (.refl s) (births_of_createVerdict hverdict) (moves_completeCommand ..)
      · exact .moves (moves_completeCommand ..)
    · exact .refl s

theorem moves_decideRetire (b : Block) (s : State) : Moves true 1 s (decideRetire b s).2.2 := by
  unfold decideRetire
  split
  · exact (Moves.refl s).weaken (Nat.zero_le 1)
  · rename_i i r hfind
    split_ifs with hf
    · exact (Moves.refl s).weaken (Nat.zero_le 1)
    · obtain ⟨hl, hr⟩ := findRecord_eq_ok hfind
      exact (Move.retire hr fun ht => ht.unfrozen_of_lookup hl hr (by simpa using hf)).moves

theorem value_length {b : Block} (h : b.length = r.length) (hr : r.length ≤ 8) : b.value.length = r.length := by
  simp only [Block.value, List.length_take, Block.bytes, List.length_cons, List.length_nil]
  omega

theorem moves_decideWrite (b : Block) (s : State) : Moves true 1 s (decideWrite b s).2.2 := by
  unfold decideWrite
  split
  · exact (Moves.refl s).weaken (Nat.zero_le 1)
  · rename_i i r hfind
    split_ifs with hp hlen hf
    · exact (Moves.refl s).weaken (Nat.zero_le 1)
    · exact (Moves.refl s).weaken (Nat.zero_le 1)
    · exact (Moves.refl s).weaken (Nat.zero_le 1)
    · obtain ⟨hl, hr⟩ := findRecord_eq_ok hfind
      exact moves_applyStep hr (fun ht => ht.unfrozen_of_lookup hl hr (by simpa using hf)) fun _ h =>
        ⟨value_length (not_not.mp hlen) h.length.2, .inl ⟨rfl, rfl⟩⟩

theorem moves_forceStep {x : Option (List Byte)} (hr : s.record i = some r)
    (hunfrozen : TableSound s → s.frozen (zoneOf r.tag) = false)
    (hx : ∀ v, x = some v → r.length ≤ 8 → v.length = r.length) : Moves true 1 s (forceStep i x s) := by
  refine moves_recordStep hr ⟨rfl, rfl, fun _ _ h => ?_⟩ rfl hunfrozen
  exact ⟨h.length, h.process, fun v hv => hx v hv h.length.2, h.node, h.host, h.grace, h.pendingFrozen, h.expire, h.retire⟩

theorem moves_decideForce (b : Block) (s : State) : Moves true 1 s (decideForce b s).2.2 := by
  unfold decideForce
  split
  · exact (Moves.refl s).weaken (Nat.zero_le 1)
  · rename_i i r hfind
    split_ifs with hlen hf
    · exact (Moves.refl s).weaken (Nat.zero_le 1)
    · exact (Moves.refl s).weaken (Nat.zero_le 1)
    · obtain ⟨hl, hr⟩ := findRecord_eq_ok hfind
      refine moves_forceStep hr (fun ht => ht.unfrozen_of_lookup hl hr (by simpa using hf)) fun v hv hmax => ?_
      obtain rfl := Option.some.inj hv
      exact value_length (not_not.mp hlen) hmax

theorem moves_decideUnforce (b : Block) (s : State) : Moves true 1 s (decideUnforce b s).2.2 := by
  unfold decideUnforce
  split
  · exact (Moves.refl s).weaken (Nat.zero_le 1)
  · rename_i i r hfind
    split_ifs with hlen hf
    · exact (Moves.refl s).weaken (Nat.zero_le 1)
    · exact (Moves.refl s).weaken (Nat.zero_le 1)
    · obtain ⟨hl, hr⟩ := findRecord_eq_ok hfind
      exact moves_forceStep hr (fun ht => ht.unfrozen_of_lookup hl hr (by simpa using hf)) (by simp)

theorem configures_of_setZoneVerdict {z : ZoneIx} {st : ZoneStatus} {ad : Admission} {q l g : Nat}
    (hrange : ¬ (512 < q ∨ 6000 < l ∨ 6000 < g))
    (h : s.setZoneVerdict z ((s.zone z).withSettings st ad q l g) = .ok) :
    Configures z ((s.zone z).withSettings st ad q l g) s := by
  unfold State.setZoneVerdict at h
  split_ifs at h with hused hquota hsum hf
  simp only [not_or, Nat.not_lt] at hrange
  refine ⟨⟨rfl, rfl, rfl⟩, fun hd => ?_, Nat.le_of_not_lt hquota, hrange, Nat.le_of_not_lt hsum, by simpa using hf⟩
  by_contra hne
  exact hused ⟨hd, Nat.pos_of_ne_zero hne⟩

theorem moves_decideSetZone (b : Block) (s : State) : Moves true 0 s (decideSetZone b s).2.2 := by
  unfold decideSetZone
  dsimp only
  split
  · split_ifs with hrange
    · exact .refl s
    · split
      · rename_i hverdict
        exact (Move.configure (configures_of_setZoneVerdict hrange hverdict)).moves
      · exact .refl s
  · exact .refl s

theorem moves_decideFreeze (b : Block) (s : State) : Moves true 0 s (decideFreeze b s).2.2 := by
  unfold decideFreeze
  split
  · exact .refl s
  · rename_i z _
    split_ifs with hz hf
    · exact .refl s
    · exact .refl s
    · refine (Move.freeze ?_ _).moves
      cases hstatus : (s.zone z).status with
      | active => rfl
      | disabled => exact absurd hstatus hz

theorem moves_decideThaw (b : Block) (s : State) :
    ∃ k, (s.deferred.length ≤ 32 → k ≤ 600) ∧ Moves false k s (decideThaw b s).2.2 := by
  unfold decideThaw
  split
  · exact ⟨0, fun _ => Nat.zero_le _, .refl s⟩
  · split_ifs
    · exact moves_thawZone _ s
    · exact ⟨0, fun _ => Nat.zero_le _, .refl s⟩

theorem moves_decideBusStart (b : Block) (s : State) : Moves true 0 s (decideBusStart b s).2.2 := by
  unfold decideBusStart
  split_ifs with hport
  · exact .refl s
  · refine moves_outside rfl rfl fun hs => ?_
    refine ⟨hs.bounded, hs.notifies, hs.onePerTriple, hs.started, hs.faults, fun hoff => by simp [done] at hoff,
      fun hsome => ?_⟩
    exact absurd (hs.online hsome) (by simp [not_not.mp hport])
  · exact .refl s

theorem moves_execBusStop (s : State) : ∃ t, execBusStop s = .next t ∧ Moves true 0 s t := by
  refine ⟨_, rfl, ?_⟩
  split_ifs with hattempt
  · split
    · exact .refl s
    · split_ifs
      · exact moves_beside rfl rfl rfl
      · exact .refl s
  · refine moves_takeCommand fun b => ?_
    unfold decideBusStop
    split_ifs
    · exact .refl s
    · refine moves_goOffline fun hs => ?_
      by_contra hsome
      have hsome' : s.transmitter.isSome = true := Option.isSome_iff_ne_none.mpr hsome
      exact hattempt ⟨hs.online hsome', hsome'⟩

/-! ## The maintenance port (chapter 11) -/

theorem moves_withMaint (m : Maint) (s : State) : Moves true 0 s (s.withMaint m) := moves_beside rfl rfl rfl

theorem moves_setOutput (out : MaintFrame) (p : PokeProgress) (s : State) : Moves true 0 s (setOutput out p s) :=
  moves_beside rfl rfl rfl

theorem moves_endRequest (f : MaintFrame) (s : State) : Moves true 0 s (endRequest f s) := by
  have hattention : ∀ w, Moves true 0 s (doAttention w s) := fun w => by
    unfold doAttention
    split <;> exact moves_beside rfl rfl rfl
  unfold endRequest
  split
  case h_5 => exact hattention _
  all_goals exact moves_beside rfl rfl rfl

theorem pokeVerdict_eq_ok {slot : Word} {field inc : Byte} (h : s.pokeVerdict slot field inc = .ok (i, r)) :
    s.record i = some r ∧ s.frozen (zoneOf r.tag) = false := by
  unfold State.pokeVerdict at h
  split at h
  · cases h
  · rename_i j _
    cases hr : s.record j with
    | none => simp only [hr] at h; split_ifs at h
    | some r' =>
      simp only [hr] at h
      split_ifs at h with _ _ _ hf _
      obtain ⟨rfl, rfl⟩ := Prod.mk.inj (Except.ok.inj h)
      exact ⟨hr, by simpa using hf⟩

theorem moves_endFrame (f : MaintFrame) (s : State) : Moves true 1 s (endFrame f s) := by
  unfold endFrame
  split
  · exact (moves_endRequest f s).weaken (Nat.zero_le 1)
  · unfold endPokeData
    split
    · exact (moves_setOutput _ _ s).weaken (Nat.zero_le 1)
    · rename_i hverdict
      obtain ⟨hr, hf⟩ := pokeVerdict_eq_ok hverdict
      refine (moves_setOutput _ _ s).zero_trans (moves_applyStep hr (fun _ => hf) fun _ _ => ?_)
      exact ⟨patched_length .., .inl ⟨rfl, rfl⟩⟩
  · unfold endPokeReadBack
    split <;> exact (moves_setOutput _ _ s).weaken (Nat.zero_le 1)
  · exact (moves_setOutput _ _ s).weaken (Nat.zero_le 1)

theorem moves_realign (s : State) : Moves true 0 s (realign s) := moves_beside rfl rfl rfl

theorem moves_fallingEdge (s : State) : Moves true 0 s (fallingEdge s) := moves_beside rfl rfl rfl

theorem moves_seeEdge (s : State) : Moves true 0 s (seeEdge s) := by
  unfold seeEdge
  dsimp only
  split_ifs <;> exact moves_beside rfl rfl rfl

theorem moves_sampleBit (b : Bool) (s : State) : Moves true 1 s (sampleBit b s) := by
  unfold sampleBit
  dsimp only
  split_ifs
  · exact (moves_realign s).weaken (Nat.zero_le 1)
  · exact (moves_withMaint _ s).weaken (Nat.zero_le 1)
  · exact (moves_withMaint _ s).zero_trans (moves_endFrame ..)

theorem moves_clockEdge (e : MclkEdge) (s : State) : Moves true 1 s (clockEdge e s) := by
  have hsampled := (moves_seeEdge s).zero_trans (moves_sampleBit e.mdi _)
  unfold clockEdge
  dsimp only
  split_ifs
  · exact hsampled.trans_zero (moves_fallingEdge _)
  · exact hsampled

theorem moves_clockEdges (l : List Bool) : ∀ s : State,
    Moves true l.length s (l.foldl (fun u b => clockEdge ⟨b, true⟩ u) s) := by
  induction l with
  | nil => exact .refl
  | cons b l ih =>
    intro s
    rw [List.length_cons, Nat.add_comm]
    exact (moves_clockEdge _ s).trans (ih _)

theorem moves_clockFrame (f : MaintFrame) (s : State) : Moves true 48 s (clockFrame f s) := by
  have hedges := moves_clockEdges (frameBits f) s
  rwa [frameBits, List.length_map, List.length_range] at hedges

/-! ## Every command -/

/-- The commands that may thaw a zone, and RESET. -/
def mayThaw : Instr → Bool
  | .reset _ _ | .freezeLimitExpiry _ | .thaw | .clearTable => true
  | _ => false

/-- A command's answer, of moves and at most one creation. -/
def Takes (s : State) (o : Host.Outcome State Fault Refusal) : Prop := ∃ t, o = .next t ∧ Took 50 s t

theorem takes_of_moves (hk : k ≤ 50) (h : Moves true k s u) : Takes s (.next u) := ⟨u, rfl, .moves (h.weaken hk)⟩

theorem takes_of_took (hk : k ≤ 50) (h : Took k s u) : Takes s (.next u) := ⟨u, rfl, h.weaken hk⟩

theorem execLeaseExpiry_takes (i : SlotIx) (s : State) : Takes s (execLeaseExpiry i s) := by
  refine takes_of_moves (k := 1) (by decide) ?_
  split
  · exact (Moves.refl s).weaken (Nat.zero_le 1)
  · rename_i r hr
    split_ifs with hdue
    · exact moves_leaseExpired hr hdue
    · exact (Moves.refl s).weaken (Nat.zero_le 1)

theorem execGraceExpiry_takes (i : SlotIx) (s : State) : Takes s (execGraceExpiry i s) := by
  refine takes_of_moves (k := 1) (by decide) ?_
  split
  · exact (Moves.refl s).weaken (Nat.zero_le 1)
  · rename_i r hr
    split_ifs with hdue
    · exact moves_graceExpired hr hdue.1
    · exact (Moves.refl s).weaken (Nat.zero_le 1)

theorem execFrameDropped_takes {rs : List Reading} (hone : s.AtMostOneFrame (.frameDropped rs)) :
    Takes s (execFrameDropped rs s) := by
  refine takes_of_took (k := 1) (by decide) ?_
  unfold State.AtMostOneFrame at hone
  dsimp only at hone
  split_ifs at hone ⊢ with hl hr
  · exact took_readings rs s hl hone
  · exact took_takeLate (fits_endedFrames rs _ _) (State.port_of_reads hr) (hone hr)
  · exact (Took.refl s).weaken (Nat.zero_le 1)

theorem execAttemptSent_takes (s : State) : Takes s (execAttemptSent s) := by
  refine takes_of_moves (k := 0) (by decide) ?_
  split
  · exact .refl s
  · rename_i f ht
    refine Moves.trans_zero ?_ (moves_endAttempt (withoutStarted (endEcho f s)))
    exact moves_withoutStarted (by simp [ht]) rfl

theorem moves_leaveLine (l : List Bool) (s : State) : Moves true 0 s (leaveLine l s) := moves_withPort (.inl rfl)

theorem execAttemptLost_takes (j : Nat) (s : State) : Takes s (execAttemptLost j s) := by
  refine takes_of_took (k := 1) (by decide) ?_
  split
  · exact (Took.refl s).weaken (Nat.zero_le 1)
  · rename_i f ht
    split_ifs
    · exact Moves.zero_took ((moves_leaveLine _ s).trans_zero (moves_loseAttempt (by simp [leaveLine, ht])))
        (took_seeReading ..)
    · exact (Took.refl s).weaken (Nat.zero_le 1)

theorem execAttemptFault_takes (j : Nat) (x : Reading) (s : State) : Takes s (execAttemptFault j x s) := by
  refine takes_of_took (k := 1) (by decide) ?_
  split
  · exact (Took.refl s).weaken (Nat.zero_le 1)
  · rename_i f ht
    split_ifs
    · exact Moves.zero_took ((moves_leaveLine _ s).trans_zero (moves_faultAttempt (by simp [leaveLine, ht])))
        (took_seeReading ..)
    · exact (Took.refl s).weaken (Nat.zero_le 1)

theorem execBadCommand_takes (s : State) : Takes s (execBadCommand s) := by
  refine takes_of_moves (k := 0) (by decide) ?_
  split
  · exact .refl s
  · split_ifs
    · exact moves_completeCommand ..
    · exact .refl s

/-- Any other command in which at most one frame ends is made of at most 50 changes and one creation. -/
theorem exec_takes (c : Instr) (s : State) (hc : mayThaw c = false) (hone : s.AtMostOneFrame c) : Takes s (exec c s) := by
  have hsame : Takes s (.next s) := takes_of_moves (by decide) (.refl s)
  cases c with
  | reset | freezeLimitExpiry | thaw | clearTable => cases hc
  | leaseExpiry i => exact execLeaseExpiry_takes i s
  | graceExpiry i => exact execGraceExpiry_takes i s
  | frameDropped rs => exact execFrameDropped_takes hone
  | publish | withdraw | subscribe | unsubscribe | query => exact takes_of_took (by decide) (took_passFrame _ hone)
  | busOnline n => exact takes_of_took (by decide) (took_quiet n s)
  | attemptStart n => exact takes_of_took (by decide) ((took_quiet n s).trans_zero (moves_tryAttempt _))
  | attemptSent => exact execAttemptSent_takes s
  | attemptLost j => exact execAttemptLost_takes j s
  | attemptFault j x => exact execAttemptFault_takes j x s
  | cmdData w =>
    refine takes_of_moves (k := 0) (by decide) ?_
    split_ifs
    · exact moves_beside rfl rfl rfl
    · exact .refl s
  | cmdSubmit w =>
    refine takes_of_moves (k := 0) (by decide) ?_
    split_ifs <;> exact moves_beside rfl rfl rfl
  | cplPop w =>
    refine takes_of_moves (k := 0) (by decide) ?_
    split
    · exact .refl s
    · exact moves_beside rfl rfl rfl
  | cplData | intStatus | intEnable | maintMailbox => exact takes_of_moves (k := 0) (by decide) (moves_beside rfl rfl rfl)
  | ignoredWrite => exact hsame
  | badCommand => exact execBadCommand_takes s
  | create => exact takes_of_took (by decide) (took_create s)
  | retire => exact takes_of_moves (by decide) (moves_takeCommand (moves_decideRetire · s))
  | write => exact takes_of_moves (by decide) (moves_takeCommand (moves_decideWrite · s))
  | force => exact takes_of_moves (by decide) (moves_takeCommand (moves_decideForce · s))
  | unforce => exact takes_of_moves (by decide) (moves_takeCommand (moves_decideUnforce · s))
  | read =>
    refine takes_of_moves (k := 0) (by decide) (moves_takeCommand fun b => ?_)
    unfold decideRead
    split <;> exact .refl s
  | list =>
    refine takes_of_moves (k := 0) (by decide) (moves_takeCommand fun b => ?_)
    unfold decideList
    dsimp only
    split_ifs <;> exact .refl s
  | setZone => exact takes_of_moves (by decide) (moves_takeCommand (moves_decideSetZone · s))
  | zoneStatus =>
    refine takes_of_moves (k := 0) (by decide) (moves_takeCommand fun b => ?_)
    unfold decideZoneStatus
    split <;> exact .refl s
  | freeze => exact takes_of_moves (by decide) (moves_takeCommand (moves_decideFreeze · s))
  | setDevice =>
    refine takes_of_moves (k := 0) (by decide) (moves_takeCommand fun b => ?_)
    unfold decideSetDevice
    split
    · exact .refl s
    · split_ifs
      · exact moves_beside rfl rfl rfl
      · exact .refl s
  | busStart => exact takes_of_moves (by decide) (moves_takeCommand (moves_decideBusStart · s))
  | busStop =>
    obtain ⟨t, ht, hmoves⟩ := moves_execBusStop s
    exact ⟨t, ht, .moves (hmoves.weaken (Nat.zero_le 50))⟩
  | counters =>
    refine takes_of_moves (k := 0) (by decide) (moves_takeCommand fun b => ?_)
    unfold decideCounters
    split
    · exact .refl s
    · exact moves_beside rfl rfl rfl
    · exact .refl s
  | setMaintMode =>
    refine takes_of_moves (k := 0) (by decide) (moves_takeCommand fun b => ?_)
    unfold decideSetMaintMode
    split
    · exact .refl s
    · exact moves_beside rfl rfl rfl
  | noRequest | unknownRequestCode | nop | peek | peekZone | watch | attention | poke | pokeDataFrame | pokeReadBack
  | pokeEnd => exact takes_of_moves (by decide) (moves_clockFrame _ s)
  | frameTimeout =>
    refine takes_of_moves (k := 0) (by decide) ?_
    split_ifs
    · exact moves_realign s
    · exact .refl s
  | alignmentRecovery | mclkRisingEdge => exact takes_of_moves (by decide) (moves_clockEdge _ s)

/-- Any command but those, whatever frames end in it. -/
theorem exec_course (c : Instr) (s : State) (hc : mayThaw c = false) : ∃ t, exec c s = .next t ∧ Course s t := by
  have of_takes : s.AtMostOneFrame c → ∃ t, exec c s = .next t ∧ Course s t := fun hone => by
    obtain ⟨t, ht, htook⟩ := exec_takes c s hc hone
    exact ⟨t, ht, htook.course⟩
  cases c with
  | frameDropped rs =>
    refine ⟨_, rfl, ?_⟩
    split_ifs with hl hr
    · exact course_readings rs s hl
    · exact course_takeLate _ (fits_endedFrames rs _ _) s (State.port_of_reads hr)
    · exact .refl s
  | publish | withdraw | subscribe | unsubscribe | query => exact ⟨_, rfl, course_passFrame _ s⟩
  | _ => exact of_takes trivial

/-- The commands that may thaw, but for RESET. -/
theorem exec_thaws (c : Instr) (s : State) (hc : mayThaw c = true) (hreset : ∀ a rate, c ≠ .reset a rate) :
    ∃ t k, exec c s = .next t ∧ (s.deferred.length ≤ 32 → k ≤ 600) ∧ Moves false k s t := by
  have hsame : ∃ k, (s.deferred.length ≤ 32 → k ≤ 600) ∧ Moves false k s s := ⟨0, fun _ => Nat.zero_le _, .refl s⟩
  cases c with
  | reset a rate => exact absurd rfl (hreset a rate)
  | freezeLimitExpiry z =>
    simp only [exec, execFreezeLimitExpiry]
    split_ifs
    · obtain ⟨k, hk, hmoves⟩ := moves_thawZone z s
      exact ⟨_, k, rfl, hk, hmoves.trans_zero (moves_beside rfl rfl rfl)⟩
    · obtain ⟨k, hk, hmoves⟩ := hsame
      exact ⟨_, k, rfl, hk, hmoves⟩
  | thaw =>
    simp only [exec, execThaw, takeCommand]
    split
    · obtain ⟨k, hk, hmoves⟩ := hsame
      exact ⟨_, k, rfl, hk, hmoves⟩
    · rename_i b _
      split_ifs
      · obtain ⟨k, hk, hmoves⟩ := moves_decideThaw b s
        exact ⟨_, k, rfl, hk, hmoves.trans_zero (moves_completeCommand ..)⟩
      · obtain ⟨k, hk, hmoves⟩ := hsame
        exact ⟨_, k, rfl, hk, hmoves⟩
  | clearTable => exact ⟨_, 0, rfl, fun _ => Nat.zero_le _, moves_takeCommand fun _ => Move.clear.moves⟩
  | _ => cases hc

end Sys2Proof.Machine
end

section
/-! PROOF. What the moves keep: clock and queue of commands (R22, R70), the answer queue (R137 to R140), and record store,
directory, free-slot queue and zone table in agreement (R13, R23, R37 to R47). -/

namespace Sys2Proof.Machine

variable {s u v : State} {i : SlotIx} {r r' : Record} {steady : Bool} {k l : Nat}

/-! ## From commands to steps -/

theorem exec_reset (a : Addr) (rate : BitVec 2) (s : State) :
    exec (.reset a rate) s = .next (((State.powerOn ⟨a, rate⟩).withPending s.pending).withChoices s.choices) := rfl

/-- What holds of a creation and of each move holds along every command but RESET. -/
theorem exec_keeps {P : State → State → Prop} (hrefl : ∀ s, P s s) (htrans : ∀ {s u v}, P s u → P u v → P s v)
    (hmove : ∀ {b k s u}, Move b k s u → P s u) (hbirth : ∀ {n s}, Births n s → P s (createRecord n s)) (c : Instr)
    (hc : ∀ a rate, c ≠ .reset a rate) (s : State) : ∃ t, exec c s = .next t ∧ P s t := by
  cases hthaw : mayThaw c with
  | true =>
    obtain ⟨t, k, ht, -, hmoves⟩ := exec_thaws c s hthaw hc
    exact ⟨t, ht, hmoves.induct hrefl htrans hmove⟩
  | false =>
    obtain ⟨t, ht, hcourse⟩ := exec_course c s hthaw
    exact ⟨t, ht, hcourse.induct hrefl htrans hmove hbirth⟩

/-- The part's own turn moves the time base, the line and the waiting commands alone. -/
theorem ownTurn_beside (s : State) : s.ownTurn.tables = s.tables ∧ s.ownTurn.answerUnit = s.answerUnit := by
  unfold State.ownTurn
  split
  · split_ifs <;> exact ⟨rfl, rfl⟩
  · exact ⟨rfl, rfl⟩

/-- An invariant of the tables and the answer queue that holds after power-on, and that every move and creation keeps, is
kept by every step. -/
theorem step_keeps {I : State → Prop}
    (hcongr : ∀ {s u : State}, u.tables = s.tables → u.answerUnit = s.answerUnit → I s → I u)
    (hpower : ∀ x, I (.powerOn x)) (hmove : ∀ {b k s u}, Move b k s u → I s → I u)
    (hbirth : ∀ {n s}, Births n s → I s → I (createRecord n s)) {s t : State} (hstep : step s = .next t) (hs : I s) :
    I t := by
  unfold step at hstep
  split at hstep
  · rename_i c rest _
    by_cases hreset : ∃ a rate, c = .reset a rate
    · obtain ⟨a, rate, rfl⟩ := hreset
      rw [exec_reset, Host.Outcome.next.injEq] at hstep
      subst hstep
      generalize hon : State.powerOn ⟨a, rate⟩ = p
      exact hcongr (s := p) rfl rfl (hon ▸ hpower _)
    · obtain ⟨u, hu, hkeeps⟩ := exec_keeps (P := fun s u => I s → I u) (fun _ => id) (fun h g => g ∘ h) hmove hbirth c
        (fun a rate hc => hreset ⟨a, rate, hc⟩) (s.withPending rest)
      obtain rfl : u = t := Host.Outcome.next.inj (hu.symm.trans hstep)
      exact hkeeps (hcongr (s := s) (u := s.withPending rest) rfl rfl hs)
  · obtain rfl : s.ownTurn = t := Host.Outcome.next.inj hstep
    exact hcongr (ownTurn_beside s).1 (ownTurn_beside s).2 hs

/-! ## The clock and the queue of commands -/

theorem pace_createRecord (n : NewRecord) (s : State) : (createRecord n s).pace = s.pace :=
  pace_of_outer (outer_createRecord n)

/-- Settles O3: no move and no creation touches them, and RESET keeps the queue and the counter. -/
theorem commandsLeaveTheQueueAndTheClock : Obligations.CommandsLeaveTheQueueAndTheClock := by
  intro c s
  by_cases hreset : ∃ a rate, c = .reset a rate
  · obtain ⟨a, rate, rfl⟩ := hreset
    exact ⟨_, exec_reset a rate s, rfl, rfl, fun hne => absurd rfl (hne a rate)⟩
  · obtain ⟨t, ht, hpace⟩ := exec_keeps (P := fun s u => u.pace = s.pace) (fun _ => rfl) (fun h g => g.trans h)
      Move.pace_eq (fun _ => pace_createRecord ..) c (fun a rate hc => hreset ⟨a, rate, hc⟩) s
    simp only [State.pace, Pace.mk.injEq] at hpace
    obtain ⟨htime, hstraps, hchoices, hpending⟩ := hpace
    exact ⟨t, ht, hpending, hchoices, fun _ => ⟨htime, hstraps⟩⟩

/-! ## The answer queue -/

theorem answersSound_powerOn (x : Straps) : AnswersSound (.powerOn x) := by
  refine ⟨?_, ?_, fun _ _ => ?_, rfl, fun a ha => ?_, fun _ => rfl, fun h => by cases h⟩
  · exact Nat.zero_le _
  · exact Nat.zero_le _
  · exact Nat.zero_le _
  · cases ha

theorem keepsAnswers_createRecord (n : NewRecord) (s : State) : KeepsAnswers s (createRecord n s) := by
  unfold createRecord
  split
  · exact .refl s
  · exact keepsAnswers_of_unit rfl

/-- Settles O10: every move keeps the answer queue sound, and a creation leaves it. -/
theorem stepKeepsTheAnswerQueueSound : Obligations.StepKeepsTheAnswerQueueSound := fun _ _ hs hstep =>
  step_keeps (fun _ hunit hs => hs.congr hunit) answersSound_powerOn Move.keepsAnswers
    (fun {n s} _ => keepsAnswers_createRecord n s) hstep hs

/-! ## Sums over the slots -/

/-- A number of each slot's record, summed over the slots. -/
def State.tally (F : Option Record → Nat) (s : State) : Nat := ∑ i, F (s.record i)

theorem tally_congr {F : Option Record → Nat} (h : ∀ j, F (u.record j) = F (s.record j)) : u.tally F = s.tally F :=
  Finset.sum_congr rfl fun j _ => h j

/-- One slot changes. -/
theorem tally_update {F : Option Record → Nat} (h : ∀ j, j ≠ i → u.record j = s.record j) :
    u.tally F + F (s.record i) = s.tally F + F (u.record i) := by
  have hrest : ∑ j ∈ {i}ᶜ, F (u.record j) = ∑ j ∈ {i}ᶜ, F (s.record j) :=
    Finset.sum_congr rfl fun j hj => by rw [h j (by simpa using hj)]
  unfold State.tally
  rw [Fintype.sum_eq_add_sum_compl i fun j => F (u.record j), Fintype.sum_eq_add_sum_compl i fun j => F (s.record j), hrest]
  omega

theorem tally_of_free {F : Option Record → Nat} (hF : F none = 0) (h : ∀ j, s.record j = none) : s.tally F = 0 :=
  Finset.sum_eq_zero fun j _ => by rw [h j, hF]

theorem sum_slots (F : Option Record → Nat) (s : State) : (s.slots.toList.map fun x => F x.record).sum = s.tally F := by
  have hlist : s.slots.toList.map (fun x => F x.record) = List.ofFn fun j => F (s.record j) := by
    refine List.ext_getElem (by simp only [List.length_map, Vector.length_toList, List.length_ofFn]) fun j hj hj' => ?_
    rw [List.getElem_map, List.getElem_ofFn]
    rfl
  rw [hlist, List.sum_ofFn, State.tally]

/-- 1 for a record of zone `z`, else 0. -/
def inZone (z : ZoneIx) (x : Option Record) : Nat := if x.any (fun r => decide (zoneOf r.tag = z)) then 1 else 0

theorem recordsIn_eq_tally (s : State) (z : ZoneIx) : s.recordsIn z = s.tally (inZone z) := by
  rw [← sum_slots, State.recordsIn]
  induction s.slots.toList with
  | nil => rfl
  | cons x l ih =>
    rw [List.countP_cons, List.map_cons, List.sum_cons, ih, Nat.add_comm]
    cases hx : x.record <;> simp [inZone]

/-- The number of a record's subscribers. -/
def subscriberCount (x : Option Record) : Nat := x.elim 0 fun r => r.subscribers.length

theorem usedEntries_eq_tally (s : State) : s.usedEntries = s.tally subscriberCount := by
  rw [← sum_slots, State.usedEntries]
  congr 1
  refine List.map_congr_left fun x _ => ?_
  cases x.record <;> rfl

/-! ## Zones -/

/-- A zone entry but for its change count. -/
def Zone.ledger (x : Zone) : Zone := { x with changeCount := 0 }

theorem Zone.ledger_eq_iff {x y : Zone} : x.ledger = y.ledger ↔ x.status = y.status ∧ x.admission = y.admission ∧
    x.quota = y.quota ∧ x.count = y.count ∧ x.lease = y.lease ∧ x.grace = y.grace ∧ x.freeze = y.freeze := by
  simp [Zone.ledger]

theorem quotaSum_congr (h : ∀ z, (u.zone z).status = (s.zone z).status ∧ (u.zone z).quota = (s.zone z).quota) :
    u.quotaSum = s.quotaSum := by
  rw [State.quotaSum_eq, State.quotaSum_eq]
  congr 1
  exact List.map_congr_left fun z _ => by rw [(h z).1, (h z).2]

theorem zone_of_setZone {z : ZoneIx} {x : Zone} (h : u.zones = (s.setZone z x).zones) (y : ZoneIx) :
    u.zone y = if y = z then x else s.zone y := by
  rw [State.zone_congr h, State.zone_setZone]

theorem record_of_setRecord (h : u.slots = (s.setRecord i r').slots) (j : SlotIx) :
    u.record j = if j = i then some r' else s.record j := by
  rw [State.record_congr h, State.record_setRecord]

theorem record_of_setSlot {x : Slot} (h : u.slots = (s.setSlot i x).slots) (j : SlotIx) :
    u.record j = if j = i then x.record else s.record j := by
  rw [State.record_congr h, State.record, State.slot_setSlot]
  split_ifs <;> rfl

/-! ## Record store, directory, free-slot queue and zone table -/

/-- Soundness speaks of the tags in the slots and of the zone entries but for their change counts. -/
theorem TableSound.congr (h : TableSound s) (htags : ∀ j, (u.record j).map (·.tag) = (s.record j).map (·.tag))
    (hdirectory : u.directory = s.directory) (hqueue : u.freeQueue = s.freeQueue)
    (hzones : ∀ z, (u.zone z).ledger = (s.zone z).ledger) : TableSound u := by
  simp only [Zone.ledger_eq_iff] at hzones
  have hnone : ∀ j, u.record j = none ↔ s.record j = none := fun j => by
    rw [← Option.map_eq_none_iff (f := Record.tag), htags, Option.map_eq_none_iff]
  have htally : ∀ z, u.recordsIn z = s.recordsIn z := fun z => by
    rw [recordsIn_eq_tally, recordsIn_eq_tally]
    refine tally_congr fun j => ?_
    have hany : ∀ x : Option Record, inZone z x = if (x.map (·.tag)).any (fun t => decide (zoneOf t = z)) then 1 else 0 :=
      fun x => by cases x <;> rfl
    rw [hany, hany, htags]
  have hfound : ∀ j t, (∃ r, u.record j = some r ∧ r.tag = t) ↔ ∃ r, s.record j = some r ∧ r.tag = t := fun j t => by
    rw [← Option.map_eq_some_iff, ← Option.map_eq_some_iff, htags]
  have hstatus : ∀ z, (u.zone z).status = (s.zone z).status := fun z => (hzones z).1
  have hquota : ∀ z, (u.zone z).quota = (s.zone z).quota := fun z => (hzones z).2.2.1
  have hcount : ∀ z, (u.zone z).count = (s.zone z).count := fun z => (hzones z).2.2.2.1
  exact
    { ascending := hdirectory ▸ h.ascending
      entries := fun t j => by rw [hdirectory, h.entries, hfound]
      tagged := fun j r hr => by
        obtain ⟨r0, hr0, htag⟩ := (hfound j r.tag).mp ⟨r, hr, rfl⟩
        exact htag ▸ h.tagged j r0 hr0
      freeOnce := hqueue ▸ h.freeOnce
      free := fun j => by rw [hqueue, h.free, hnone]
      counted := fun z => by rw [htally, hcount, h.counted]
      withinQuota := fun z => by rw [hcount, hquota]; exact h.withinQuota z
      ranges := fun z => by
        obtain ⟨-, -, hq, -, hlease, hgrace, -⟩ := hzones z
        rw [hq, hlease, hgrace]
        exact h.ranges z
      quotas := quotaSum_congr (fun z => ⟨hstatus z, hquota z⟩) ▸ h.quotas
      disabled := fun z hz => by
        obtain ⟨-, -, -, hc, -, -, hfreeze⟩ := hzones z
        rw [hc, hfreeze]
        exact h.disabled z (hstatus z ▸ hz) }

end Sys2Proof.Machine
end

section
/-! PROOF. What the moves keep: record store, directory, free-slot queue and zone table in agreement (R13, R23, R37 to
R47). -/

namespace Sys2Proof.Machine

variable {s u v : State} {i : SlotIx} {r r' : Record} {steady : Bool} {k l : Nat} {z : ZoneIx}

/-! ## CLEAR_TABLE and power-on -/

theorem slot_clearTable (s : State) (i : SlotIx) : (clearTable s).slot i = Slot.cleared (s.slot i) := by
  simp [clearTable, State.slot, mapVector]

theorem zone_clearTable (s : State) (z : ZoneIx) : (clearTable s).zone z = Zone.cleared (s.zone z) := by
  simp [clearTable, State.zone, mapVector]

theorem freeQueue_clearTable (s : State) : (clearTable s).freeQueue = List.finRange 512 := by
  unfold clearTable
  simp only [State.withAnswers, State.withDeferred, State.withPoolFree, State.withZones, State.withDirectory,
    State.withFreeQueue]

theorem record_powerOn (x : Straps) (i : SlotIx) : (State.powerOn x).record i = none := by
  change ((Vector.replicate 512 Slot.reset)[i]).record = none
  rw [Fin.getElem_fin, Vector.getElem_replicate, Slot.reset]

theorem zone_powerOn (x : Straps) (z : ZoneIx) : (State.powerOn x).zone z = Zone.reset := by
  change (Vector.replicate 16 Zone.reset)[z] = _
  rw [Fin.getElem_fin, Vector.getElem_replicate]

theorem inZone_none (z : ZoneIx) : inZone z none = 0 := rfl

theorem inZone_some (z : ZoneIx) (r : Record) : inZone z (some r) = if zoneOf r.tag = z then 1 else 0 := by
  simp [inZone]

/-- With every slot FREE, the queue holds each once. -/
theorem TableSound.of_free (hrecord : ∀ j, u.record j = none) (hqueue : u.freeQueue = List.finRange 512)
    (hdirectory : u.directory = []) (hcount : ∀ z, (u.zone z).count = 0)
    (hranges : ∀ z, (u.zone z).quota ≤ 512 ∧ (u.zone z).lease ≤ 6000 ∧ (u.zone z).grace ≤ 6000)
    (hsum : u.quotaSum ≤ 512) (hfreeze : ∀ z, (u.zone z).status = .disabled → (u.zone z).freeze = none) :
    TableSound u where
  ascending := hdirectory ▸ .nil
  entries t j := by simp [hdirectory, hrecord]
  tagged j r hr := by simp [hrecord] at hr
  freeOnce := hqueue ▸ List.nodup_finRange 512
  free j := by simp [hqueue, hrecord]
  counted z := by rw [hcount, recordsIn_eq_tally, tally_of_free (inZone_none z) hrecord]
  withinQuota z := hcount z ▸ Nat.zero_le _
  ranges := hranges
  quotas := hsum
  disabled z hz := ⟨hcount z, hfreeze z hz⟩

theorem tableSound_powerOn (x : Straps) : TableSound (.powerOn x) := by
  refine .of_free (record_powerOn x) (by simp only [State.powerOn]) rfl (fun z => ?_) (fun z => ?_) ?_ fun z _ => ?_
  · rw [zone_powerOn]; rfl
  · rw [zone_powerOn]; exact ⟨Nat.zero_le _, Nat.zero_le _, Nat.zero_le _⟩
  · rw [State.quotaSum_eq]
    simp [zone_powerOn, Zone.reset]
  · rw [zone_powerOn]; rfl

theorem TableSound.clear (h : TableSound s) : TableSound (clearTable s) := by
  refine .of_free (record_clearTable s) (freeQueue_clearTable s) rfl (fun z => ?_) (fun z => ?_) ?_ fun z _ => ?_
  · rw [zone_clearTable]; rfl
  · rw [zone_clearTable]; exact h.ranges z
  · rw [quotaSum_congr (s := s) fun z => by rw [zone_clearTable]; exact ⟨rfl, rfl⟩]
    exact h.quotas
  · rw [zone_clearTable]; rfl

/-! ## Zone settings and freezing -/

/-- A zone entry may take settings that fit it. -/
theorem TableSound.setZone {x : Zone} (h : TableSound s) (hcount : x.count = (s.zone z).count)
    (hquota : x.count ≤ x.quota) (hranges : x.quota ≤ 512 ∧ x.lease ≤ 6000 ∧ x.grace ≤ 6000)
    (hsum : (s.setZone z x).quotaSum ≤ 512) (hdisabled : x.status = .disabled → x.count = 0 ∧ x.freeze = none) :
    TableSound (s.setZone z x) := by
  refine ⟨h.ascending, h.entries, h.tagged, h.freeOnce, h.free, fun y => ?_, fun y => ?_, fun y => ?_, hsum, fun y => ?_⟩
  all_goals rw [State.zone_setZone]; split_ifs with hy
  · rw [hcount, hy]; exact h.counted z
  · exact h.counted y
  · exact hquota
  · exact h.withinQuota y
  · exact hranges
  · exact h.ranges y
  · exact hdisabled
  · exact h.disabled y

/-- Freezing and thawing leave the settings. -/
theorem TableSound.setFreeze (h : TableSound s) (d : Option Nat)
    (hactive : (s.zone z).status = .disabled → d = none) :
    TableSound (s.setZone z { s.zone z with freeze := d }) := by
  refine h.setZone rfl (h.withinQuota z) (h.ranges z) ?_ fun hz => ⟨(h.disabled z hz).1, hactive hz⟩
  rw [quotaSum_congr (s := s) fun y => ?_]
  · exact h.quotas
  · rw [State.zone_setZone]
    split_ifs with hy
    · rw [hy]; exact ⟨rfl, rfl⟩
    · exact ⟨rfl, rfl⟩

/-! ## Records changed in place -/

theorem tags_of_setRecord (hslots : u.slots = (s.setRecord i r').slots) (hr : s.record i = some r)
    (htag : r'.tag = r.tag) (j : SlotIx) : (u.record j).map (·.tag) = (s.record j).map (·.tag) := by
  rw [record_of_setRecord hslots]
  split_ifs with hj
  · rw [hj, hr]; exact congrArg some htag
  · rfl

theorem TableSound.setRecord (h : TableSound s) (hr : s.record i = some r) (htag : r'.tag = r.tag) :
    TableSound (s.setRecord i r') :=
  h.congr (tags_of_setRecord rfl hr htag) rfl rfl fun _ => rfl

theorem TableSound.withPoolFree (h : TableSound s) (n : Nat) : TableSound (s.withPoolFree n) :=
  h.congr (fun _ => rfl) rfl rfl fun _ => rfl

theorem TableSound.visible (h : TableSound s) (hr : s.record i = some r) (hu : VisiblyChanged i r' s u)
    (htag : r'.tag = r.tag) : TableSound u := by
  refine h.congr (tags_of_setRecord hu.record hr htag) (by rw [hu.rest]) (by rw [hu.rest]) fun z => ?_
  rw [zone_of_setZone hu.zone]
  split_ifs with hz
  · rw [hz]; rfl
  · rfl

theorem addSubscription_of_record {n : Addr} (hr : s.record i = some r) : addSubscription i n s =
    (s.setRecord i { r with subscribers := r.subscribers ++ [⟨n, false⟩] }).withPoolFree (s.poolFree - 1) := by
  rw [addSubscription, hr]

/-- A subscription that is not there is not returned. -/
theorem returnSubscription_cases (i : SlotIx) (n : Addr) (s : State) : returnSubscription i n s = s ∨
    ∃ r, s.record i = some r ∧ (∃ x ∈ r.subscribers, x.node = n) ∧ returnSubscription i n s =
      (s.setRecord i { r with subscribers := r.subscribers.eraseP fun x => x.node = n }).withPoolFree (s.poolFree + 1) := by
  unfold returnSubscription
  cases hr : s.record i with
  | none => exact .inl rfl
  | some r =>
    dsimp only
    split_ifs with hany
    · exact .inr ⟨r, rfl, by simpa using hany, rfl⟩
    · exact .inl rfl

/-! ## Retirement and creation -/

theorem quotaSum_of_setZone {x : Zone} (hzones : u.zones = (s.setZone z x).zones) (hstatus : x.status = (s.zone z).status)
    (hquota : x.quota = (s.zone z).quota) : u.quotaSum = s.quotaSum := by
  refine quotaSum_congr fun y => ?_
  rw [zone_of_setZone hzones]
  split_ifs with hy
  · rw [hy]; exact ⟨hstatus, hquota⟩
  · exact ⟨rfl, rfl⟩

/-- The counts after one slot has changed. -/
theorem counted_of_update {x : Zone} (h : TableSound s) (hrecord : ∀ j, j ≠ i → u.record j = s.record j)
    (hzones : u.zones = (s.setZone z x).zones)
    (hself : x.count + inZone z (s.record i) = (s.zone z).count + inZone z (u.record i))
    (hother : ∀ y, y ≠ z → inZone y (s.record i) = inZone y (u.record i)) (y : ZoneIx) :
    (u.zone y).count = u.recordsIn y := by
  have htally := tally_update (F := inZone y) hrecord
  rw [← recordsIn_eq_tally, ← recordsIn_eq_tally, ← h.counted] at htally
  rw [zone_of_setZone hzones]
  split_ifs with hy
  · subst hy; omega
  · have := hother y hy
    omega

theorem TableSound.retired (h : TableSound s) (hr : s.record i = some r) (hu : Retired i r s u) : TableSound u := by
  have hrecord : ∀ j, u.record j = if j = i then none else s.record j := record_of_setSlot hu.freed
  have hzone := zone_of_setZone hu.zone
  exact
    { ascending := hu.directory ▸ h.ascending.filter _
      entries := fun t j => by
        rw [hu.directory, List.mem_filter, h.entries, hrecord]
        by_cases hj : j = i
        · subst hj
          simp only [hr, if_true, reduceCtorEq, false_and, exists_false, iff_false, not_and]
          rintro ⟨r', hr', rfl⟩
          obtain rfl := Option.some.inj hr'
          simp
        · simp [hj]
      tagged := fun j r' hr' => by
        rw [hrecord] at hr'
        split_ifs at hr'
        exact h.tagged j r' hr'
      freeOnce := by
        rw [hu.queue, List.nodup_append]
        refine ⟨h.freeOnce, List.nodup_singleton i, fun j hj j' hj' hjj' => ?_⟩
        rw [List.mem_singleton.mp hj'] at hjj'
        rw [hjj', h.free, hr] at hj
        cases hj
      free := fun j => by
        rw [hu.queue, List.mem_append, List.mem_singleton, h.free, hrecord]
        split_ifs with hj <;> simp [hj]
      counted := counted_of_update h (fun j hj => by rw [hrecord, if_neg hj]) hu.zone
        (by
          have hpos : 0 < (s.zone (zoneOf r.tag)).count := by
            have htally : u.tally (inZone (zoneOf r.tag)) + _ = s.tally (inZone (zoneOf r.tag)) + _ :=
              tally_update fun j hj => by rw [hrecord j, if_neg hj]
            rw [hrecord, if_pos rfl, hr, inZone_some, if_pos rfl, inZone_none, ← recordsIn_eq_tally,
              ← recordsIn_eq_tally, ← h.counted] at htally
            omega
          rw [hrecord, if_pos rfl, hr, inZone_some, if_pos rfl, inZone_none]
          dsimp only
          omega)
        (fun y hy => by rw [hrecord, if_pos rfl, hr, inZone_some, if_neg (Ne.symm hy), inZone_none])
      withinQuota := fun y => by
        rw [hzone]
        split_ifs
        · exact (Nat.sub_le _ 1).trans (h.withinQuota _)
        · exact h.withinQuota y
      ranges := fun y => by
        rw [hzone]
        split_ifs
        · exact h.ranges _
        · exact h.ranges y
      quotas := by rw [quotaSum_of_setZone hu.zone rfl rfl]; exact h.quotas
      disabled := fun y hy => by
        rw [hzone] at hy ⊢
        split_ifs at hy ⊢
        · obtain ⟨hcount, hfreeze⟩ := h.disabled _ hy
          exact ⟨by simp [hcount], hfreeze⟩
        · exact h.disabled y hy }

theorem not_mem_directory_of_absent {t : Tag} (h : s.lookup t = none) : ∀ e ∈ s.directory, e.tag ≠ t := by
  simpa [State.lookup] using h

/-- An entry in tag order keeps the order. -/
theorem ascending_insert {below above : List DirEntry} {e : DirEntry}
    (h : (below ++ above).Pairwise fun a b => a.tag < b.tag) (hnew : ∀ d ∈ below ++ above, d.tag ≠ e.tag)
    (hbelow : ∀ d ∈ below, ¬ e.tag < d.tag) (habove : ∀ d ∈ above.head?, e.tag < d.tag) :
    (below ++ e :: above).Pairwise fun a b => a.tag < b.tag := by
  rw [List.pairwise_append] at h ⊢
  obtain ⟨hlow, hhigh, hcross⟩ := h
  have hover : ∀ d ∈ above, e.tag < d.tag := fun d hd => by
    cases above with
    | nil => cases hd
    | cons a l =>
      have ha : e.tag < a.tag := habove a rfl
      rcases List.mem_cons.mp hd with rfl | hd
      · exact ha
      · exact BitVec.lt_trans ha ((List.pairwise_cons.mp hhigh).1 d hd)
  have hunder : ∀ d ∈ below, d.tag < e.tag := fun d hd =>
    BitVec.lt_of_le_ne (BitVec.not_lt.mp (hbelow d hd)) (hnew d (List.mem_append_left _ hd))
  refine ⟨hlow, List.pairwise_cons.mpr ⟨hover, hhigh⟩, fun a ha b hb => ?_⟩
  rcases List.mem_cons.mp hb with rfl | hb
  · exact hunder a ha
  · exact hcross a ha b hb

/-- A creation sets a new tag into a FREE slot (R15). -/
theorem TableSound.created (h : TableSound s) (hu : Created i r s u) (htag : r.tag ≠ 0)
    (hactive : (s.zone (zoneOf r.tag)).status = .active) (habsent : s.lookup r.tag = none)
    (hroom : (s.zone (zoneOf r.tag)).count < (s.zone (zoneOf r.tag)).quota) : TableSound u := by
  have hrecord : ∀ j, u.record j = if j = i then some r else s.record j := record_of_setRecord hu.record
  have hzone := zone_of_setZone hu.zone
  have hfree : s.record i = none := (h.free i).mp (hu.taken ▸ List.mem_cons_self)
  have hnew := not_mem_directory_of_absent habsent
  obtain ⟨below, above, hold, hdirectory, hbelow, habove⟩ := hu.directory
  have honce := hu.taken ▸ h.freeOnce
  have hqueue : ∀ j, j ∈ u.freeQueue ↔ j ≠ i ∧ s.record j = none := fun j => by
    rw [← h.free, hu.taken, List.mem_cons]
    have hi := (List.nodup_cons.mp honce).1
    grind
  exact
    { ascending := hdirectory ▸ ascending_insert (hold ▸ h.ascending) (hold ▸ hnew) hbelow habove
      entries := fun t j => by
        have hmem : (⟨t, j⟩ : DirEntry) ∈ u.directory ↔ (t = r.tag ∧ j = i) ∨ (⟨t, j⟩ : DirEntry) ∈ s.directory := by
          rw [hdirectory, hold]
          simp only [List.mem_append, List.mem_cons, DirEntry.mk.injEq]
          tauto
        rw [hmem, h.entries, hrecord]
        split_ifs with hj
        · subst hj
          simp [hfree, eq_comm]
        · simp [hj]
      tagged := fun j r' hr' => by
        rw [hrecord] at hr'
        split_ifs at hr'
        · exact Option.some.inj hr' ▸ htag
        · exact h.tagged j r' hr'
      freeOnce := (List.nodup_cons.mp honce).2
      free := fun j => by
        rw [hqueue, hrecord]
        split_ifs with hj <;> simp [hj]
      counted := counted_of_update h (fun j hj => by rw [hrecord, if_neg hj]) hu.zone
        (by rw [hrecord, if_pos rfl, hfree, inZone_some, if_pos rfl, inZone_none])
        (fun y hy => by rw [hrecord, if_pos rfl, hfree, inZone_some, if_neg (Ne.symm hy), inZone_none])
      withinQuota := fun y => by
        rw [hzone]
        split_ifs
        · exact hroom
        · exact h.withinQuota y
      ranges := fun y => by
        rw [hzone]
        split_ifs
        · exact h.ranges _
        · exact h.ranges y
      quotas := by rw [quotaSum_of_setZone hu.zone rfl rfl]; exact h.quotas
      disabled := fun y hy => by
        rw [hzone] at hy ⊢
        split_ifs at hy ⊢
        · rw [hactive] at hy; cases hy
        · exact h.disabled y hy }

/-! ## Every move -/

/-- The record that a creation makes. -/
def NewRecord.made (n : NewRecord) (s : State) : Record :=
  (n.fields s.timeBase).renewed (s.zone (zoneOf n.tag)).lease s.timeBase

@[simp] theorem NewRecord.made_tag (n : NewRecord) (s : State) : (n.made s).tag = n.tag := by
  unfold NewRecord.made Record.renewed
  split <;> rfl

theorem Births.created {n : NewRecord} (h : Births n s) : ∃ i, Created i (n.made s) s (createRecord n s) := by
  obtain ⟨i, rest, hqueue⟩ := List.exists_cons_of_ne_nil h.free
  exact ⟨i, createRecord_spec s n hqueue⟩

theorem TableSound.birth {n : NewRecord} (h : TableSound s) (hn : Births n s) : TableSound (createRecord n s) := by
  obtain ⟨i, hu⟩ := hn.created
  exact h.created hu (n.made_tag s ▸ hn.named) (n.made_tag s ▸ hn.active) (n.made_tag s ▸ hn.absent)
    (n.made_tag s ▸ hn.room)

theorem TableSound.of_tables (htables : u.tables = s.tables) (h : TableSound s) : TableSound u := by
  simp only [State.tables, Tables.mk.injEq] at htables
  obtain ⟨hslots, hqueue, hdirectory, hzones, -⟩ := htables
  exact h.congr (fun j => by rw [State.record_congr hslots]) hdirectory hqueue fun z => by rw [State.zone_congr hzones]

theorem Move.tableSound (hmove : Move steady k s u) (h : TableSound s) : TableSound u := by
  cases hmove with
  | outside htables => exact h.of_tables htables
  | edit hr hedit => exact h.setRecord hr hedit.tag
  | visible hr hedit =>
    exact (h.setRecord hr hedit.tag).visible (State.record_setRecord_self ..)
      (visibleChange_spec _ (State.record_setRecord_self ..)) rfl
  | retire hr => exact h.retired hr (retireSlot_spec s hr)
  | subscribe hr =>
    rw [addSubscription_of_record hr]
    exact TableSound.withPoolFree (h.setRecord hr (by rfl)) _
  | unsubscribe i n =>
    rcases returnSubscription_cases i n s with hsame | ⟨r, hr, -, hgone⟩
    · rwa [hsame]
    · rw [hgone]
      exact TableSound.withPoolFree (h.setRecord hr (by rfl)) _
  | configure hx => exact h.setZone hx.kept.1 hx.quota hx.ranges hx.quotas fun hz =>
      ⟨hx.unused hz, by simpa [State.frozen, hx.kept.2.2] using hx.unfrozen⟩
  | freeze hactive d => exact h.setFreeze _ fun hz => by rw [hactive] at hz; cases hz
  | unfreeze z => exact h.setFreeze none fun _ => rfl
  | clear => exact h.clear

/-- Settles O6: power-on is sound, and every move and creation keeps it. -/
theorem stepKeepsTheTableSound : Obligations.StepKeepsTheTableSound := fun _ _ hs hstep =>
  step_keeps (fun htables _ h => h.of_tables htables) tableSound_powerOn (fun hmove h => hmove.tableSound h)
    (fun hn h => h.birth hn) hstep hs

end Sys2Proof.Machine
end

section
/-! PROOF. What the moves keep: the subscription pool and the subscriber lists in agreement (R103, R104). -/

namespace Sys2Proof.Machine

variable {s u v : State} {i : SlotIx} {r r' : Record} {steady : Bool} {k l : Nat} {n : Addr}

/-- The nodes of the subscribers in a slot. -/
def nodesOf (x : Option Record) : List Addr := x.elim [] fun r => r.subscribers.map (·.node)

/-- A subscriber list's nodes (R103, R104). -/
structure NodesSound (l : List Addr) : Prop where
  bounded : l.length ≤ 4
  once : l.Nodup
  valid : ∀ n ∈ l, validAddress n = true

theorem nodesSound_nil : NodesSound [] := ⟨Nat.zero_le 4, .nil, by simp⟩

theorem length_nodesOf (x : Option Record) : (nodesOf x).length = subscriberCount x := by
  cases x with
  | none => rfl
  | some r => exact List.length_map _

theorem subscriptionsSound_iff : SubscriptionsSound s ↔
    s.poolFree + s.tally subscriberCount = 256 ∧ ∀ i, NodesSound (nodesOf (s.record i)) := by
  rw [← usedEntries_eq_tally]
  constructor
  · intro h
    refine ⟨h.pool, fun i => ?_⟩
    cases hr : s.record i with
    | none => exact nodesSound_nil
    | some r =>
      obtain ⟨hlength, honce⟩ := h.lists i r hr
      exact ⟨by simpa [nodesOf] using hlength, honce, by simpa [nodesOf] using h.nodes i r hr⟩
  · rintro ⟨hpool, hnodes⟩
    have hlist : ∀ i r, s.record i = some r → NodesSound (r.subscribers.map (·.node)) := fun i r hr => by
      simpa [hr, nodesOf] using hnodes i
    exact ⟨hpool, fun i r hr => ⟨by simpa using (hlist i r hr).bounded, (hlist i r hr).once⟩,
      fun i r hr x hx => (hlist i r hr).valid x.node (List.mem_map_of_mem hx)⟩

/-- One slot's list changes, with the pool. -/
theorem SubscriptionsSound.update (h : SubscriptionsSound s) (hrecord : ∀ j, j ≠ i → u.record j = s.record j)
    (hpool : u.poolFree + (nodesOf (u.record i)).length = s.poolFree + (nodesOf (s.record i)).length)
    (hnodes : NodesSound (nodesOf (s.record i)) → NodesSound (nodesOf (u.record i))) : SubscriptionsSound u := by
  obtain ⟨hold, hall⟩ := subscriptionsSound_iff.mp h
  refine subscriptionsSound_iff.mpr ⟨?_, fun j => ?_⟩
  · have htally := tally_update (F := subscriberCount) hrecord
    rw [length_nodesOf, length_nodesOf] at hpool
    omega
  · by_cases hj : j = i
    · exact hj ▸ hnodes (hall i)
    · exact hrecord j hj ▸ hall j

theorem SubscriptionsSound.of_tables (htables : u.tables = s.tables) (h : SubscriptionsSound s) :
    SubscriptionsSound u := by
  simp only [State.tables, Tables.mk.injEq] at htables
  obtain ⟨hslots, -, -, -, hpool⟩ := htables
  have hrecord := State.record_congr hslots
  exact h.update (i := 0) (fun j _ => hrecord j) (by rw [hpool, hrecord]) fun hn => hrecord 0 ▸ hn

theorem SubscriptionsSound.of_free (hrecord : ∀ j, u.record j = none) (hpool : u.poolFree = 256) :
    SubscriptionsSound u := by
  refine subscriptionsSound_iff.mpr ⟨?_, fun j => ?_⟩
  · rw [tally_of_free rfl hrecord, hpool]
  · exact hrecord j ▸ nodesSound_nil

theorem SubscriptionsSound.setRecord (h : SubscriptionsSound s) (hr : s.record i = some r)
    (hslots : u.slots = (s.setRecord i r').slots) (hpool : u.poolFree = s.poolFree)
    (hnodes : r'.subscribers.map (·.node) = r.subscribers.map (·.node)) : SubscriptionsSound u := by
  have hrecord := record_of_setRecord hslots
  have hsame : nodesOf (u.record i) = nodesOf (s.record i) := by rw [hrecord, if_pos rfl, hr]; exact hnodes
  exact h.update (fun j hj => by rw [hrecord, if_neg hj]) (by rw [hsame, hpool]) fun hn => hsame ▸ hn

theorem SubscriptionsSound.shown (h : SubscriptionsSound s) (hr : s.record i = some r) :
    SubscriptionsSound (visibleChange i s) := by
  have hu := visibleChange_spec s hr
  exact h.setRecord hr hu.record (by rw [hu.rest]) (by simp)

theorem SubscriptionsSound.retired (h : SubscriptionsSound s) (hr : s.record i = some r) (hu : Retired i r s u) :
    SubscriptionsSound u := by
  have hrecord := record_of_setSlot hu.freed
  have hfreed : nodesOf (u.record i) = [] := by rw [hrecord, if_pos rfl]; rfl
  refine h.update (fun j hj => by rw [hrecord, if_neg hj]) ?_ fun _ => hfreed ▸ nodesSound_nil
  rw [hfreed, hr, hu.pool, length_nodesOf]
  rfl

theorem SubscriptionsSound.created (h : SubscriptionsSound s) (hfree : s.record i = none) (hu : Created i r s u)
    (hnone : r.subscribers = []) : SubscriptionsSound u := by
  have hrecord := record_of_setRecord hu.record
  have hnew : nodesOf (u.record i) = [] := by rw [hrecord, if_pos rfl]; exact congrArg _ hnone
  have hpool : u.poolFree = s.poolFree := by rw [hu.rest]
  exact h.update (fun j hj => by rw [hrecord, if_neg hj]) (by rw [hnew, hfree, hpool]; rfl) fun _ => hnew ▸ nodesSound_nil

theorem NodesSound.append {l : List Addr} (h : NodesSound l) (hnew : n ∉ l) (hroom : l.length < 4)
    (hnode : validAddress n = true) : NodesSound (l ++ [n]) := by
  refine ⟨by simpa using hroom, ?_, ?_⟩
  · rw [List.nodup_append]
    exact ⟨h.once, List.nodup_singleton n, fun a ha b hb => by
      rw [List.mem_singleton.mp hb]
      exact fun hab => hnew (hab ▸ ha)⟩
  · intro a ha
    rcases List.mem_append.mp ha with ha | ha
    · exact h.valid a ha
    · exact List.mem_singleton.mp ha ▸ hnode

theorem NodesSound.sublist {l l' : List Addr} (h : NodesSound l) (hsub : l'.Sublist l) : NodesSound l' :=
  ⟨hsub.length_le.trans h.bounded, hsub.nodup h.once, fun n hn => h.valid n (hsub.subset hn)⟩

/-- A record's list changes, with the pool. -/
theorem SubscriptionsSound.setList {p : Nat} (h : SubscriptionsSound s) (hr : s.record i = some r)
    (hpool : p + r'.subscribers.length = s.poolFree + r.subscribers.length)
    (hnodes : NodesSound (r.subscribers.map (·.node)) → NodesSound (r'.subscribers.map (·.node))) :
    SubscriptionsSound ((s.setRecord i r').withPoolFree p) := by
  have hrecord : ∀ j, ((s.setRecord i r').withPoolFree p).record j = if j = i then some r' else s.record j :=
    fun j => State.record_setRecord s i j r'
  refine h.update (i := i) (fun j hj => (hrecord j).trans (if_neg hj)) ?_ ?_
  all_goals rw [hrecord, if_pos rfl, hr]
  · rwa [length_nodesOf, length_nodesOf]
  · exact hnodes

theorem SubscriptionsSound.subscribed (h : SubscriptionsSound s) (hr : s.record i = some r)
    (hnew : n ∉ r.subscribers.map (·.node)) (hroom : r.subscribers.length < 4) (hpool : 0 < s.poolFree)
    (hnode : validAddress n = true) : SubscriptionsSound (addSubscription i n s) := by
  rw [addSubscription_of_record hr]
  refine h.setList hr ?_ fun hn => ?_
  · rw [List.length_append, List.length_singleton]
    omega
  · rw [List.map_append]
    exact hn.append hnew (by simpa using hroom) hnode

theorem SubscriptionsSound.unsubscribed (h : SubscriptionsSound s) (i : SlotIx) (n : Addr) :
    SubscriptionsSound (returnSubscription i n s) := by
  rcases returnSubscription_cases i n s with hsame | ⟨r, hr, ⟨x, hx, hnode⟩, hgone⟩
  · rwa [hsame]
  · rw [hgone]
    refine h.setList hr ?_ fun hn => hn.sublist (List.eraseP_sublist.map _)
    have hlength := List.length_eraseP_of_mem (p := fun x => decide (x.node = n)) hx (by simpa using hnode)
    have hpos := List.length_pos_of_mem hx
    dsimp only
    omega

theorem Move.subscriptionsSound (hmove : Move steady k s u) (h : SubscriptionsSound s) : SubscriptionsSound u := by
  cases hmove with
  | outside htables => exact h.of_tables htables
  | edit hr hedit => exact h.setRecord hr rfl rfl hedit.nodes
  | visible hr hedit =>
    exact (h.setRecord (u := s.setRecord _ _) hr rfl rfl hedit.nodes).shown (State.record_setRecord_self ..)
  | retire hr => exact h.retired hr (retireSlot_spec s hr)
  | subscribe hr hnew hroom hpool hnode => exact h.subscribed hr hnew hroom hpool hnode
  | unsubscribe i n => exact h.unsubscribed i n
  | configure | freeze | unfreeze => exact h.update (i := 0) (fun _ _ => rfl) rfl id
  | clear => exact .of_free (record_clearTable s) rfl

theorem NewRecord.made_subscribers (m : NewRecord) (s : State) : (m.made s).subscribers = [] := by
  unfold NewRecord.made Record.renewed
  split <;> rfl

theorem Births.created_free {m : NewRecord} (hm : Births m s) (h : TableSound s) :
    ∃ i, s.record i = none ∧ Created i (m.made s) s (createRecord m s) := by
  obtain ⟨i, hu⟩ := hm.created
  exact ⟨i, (h.free i).mp (hu.taken ▸ List.mem_cons_self), hu⟩

/-- Settles O7: every move keeps the pool and the lists in agreement, and a creation takes a FREE slot with an empty
list. -/
theorem stepKeepsTheSubscriptionsSound : Obligations.StepKeepsTheSubscriptionsSound := fun _ _ htable hsub hstep => by
  refine (step_keeps (I := fun s => TableSound s ∧ SubscriptionsSound s) ?_ ?_ ?_ ?_ hstep ⟨htable, hsub⟩).2
  · exact fun htables _ h => ⟨h.1.of_tables htables, h.2.of_tables htables⟩
  · exact fun x => ⟨tableSound_powerOn x, .of_free (record_powerOn x) rfl⟩
  · exact fun hmove h => ⟨hmove.tableSound h.1, hmove.subscriptionsSound h.2⟩
  · intro m s hm h
    obtain ⟨i, hfree, hu⟩ := hm.created_free h.1
    exact ⟨h.1.birth hm, h.2.created hfree hu (m.made_subscribers s)⟩

end Sys2Proof.Machine
end

section
/-! PROOF. What the moves do to the slots: incarnation, revision and image (R4, R5, R9, R10), and a frozen zone's records
(R46, R88, R93). -/

namespace Sys2Proof.Machine

variable {s u v t : State} {i j : SlotIx} {r r' : Record} {steady : Bool} {k l : Nat} {z : ZoneIx}

/-! ## One move at one slot -/

/-- What a move from `s` to `u` may leave in slot `j`. -/
inductive SlotChange (steady : Bool) (k : Nat) (s u : State) (j : SlotIx) : Slot → Prop
  | same : SlotChange steady k s u j (s.slot j)
  | edited {r r' : Record} (hr : s.record j = some r) (htag : r'.tag = r.tag) (himage : r'.image = r.image)
      (hrevision : r'.revision = r.revision)
      (hstate : TableSound s → s.frozen (zoneOf r.tag) = true → r'.state = r.state) :
      SlotChange steady k s u j ⟨s.incarnation j, some r'⟩
  | shown {r r' : Record} (hk : k = 1) (hr : s.record j = some r) (hrevision : r'.revision = r.revision + 1)
      (hunfrozen : TableSound s → s.frozen (zoneOf r.tag) = false) (htag : r'.tag = r.tag) :
      SlotChange steady k s u j ⟨s.incarnation j, some r'⟩
  | retired {r : Record} (hk : k = 1) (hr : s.record j = some r)
      (hunfrozen : TableSound s → s.frozen (zoneOf r.tag) = false) :
      SlotChange steady k s u j ⟨s.incarnation j + 1, none⟩
  | cleared {r : Record} (hsteady : steady = false) (hr : s.record j = some r) (hthawed : ∀ z, u.frozen z = false) :
      SlotChange steady k s u j ⟨s.incarnation j + 1, none⟩

theorem SlotChange.of_slots (h : u.slots = s.slots) : SlotChange steady k s v j (u.slot j) :=
  State.slot_congr h j ▸ .same

/-- Of a change of slot `i` alone. -/
theorem SlotChange.of_setSlot {x : Slot} (hslots : u.slots = (s.setSlot i x).slots)
    (h : SlotChange steady k s v i x) : SlotChange steady k s v j (u.slot j) := by
  rw [State.slot_congr hslots, State.slot_setSlot]
  split_ifs with hj
  · exact hj ▸ h
  · exact .same

theorem SlotChange.of_edit (hslots : u.slots = (s.setRecord i r').slots) (hr : s.record i = some r)
    (htag : r'.tag = r.tag) (himage : r'.image = r.image) (hrevision : r'.revision = r.revision)
    (hstate : TableSound s → s.frozen (zoneOf r.tag) = true → r'.state = r.state) :
    SlotChange steady k s v j (u.slot j) :=
  .of_setSlot hslots (.edited hr htag himage hrevision hstate)

theorem visibleChange_after (i : SlotIx) (r : Record) (s : State) :
    VisiblyChanged i r s (visibleChange i (s.setRecord i r)) :=
  (visibleChange_spec _ (State.record_setRecord_self ..)).of_setRecord

theorem Move.slot (h : Move steady k s u) (j : SlotIx) : SlotChange steady k s u j (u.slot j) := by
  cases h with
  | outside htables => exact .of_slots (congrArg Tables.slots htables)
  | edit hr hedit himage hrevision hstate => exact .of_edit rfl hr hedit.tag himage hrevision hstate
  | visible hr hedit hrevision hunfrozen =>
    exact .of_setSlot (visibleChange_after ..).record (.shown rfl hr (by rw [hrevision]) hunfrozen hedit.tag)
  | retire hr hunfrozen => exact .of_setSlot (retireSlot_spec s hr).freed (.retired rfl hr hunfrozen)
  | subscribe hr =>
    rw [addSubscription_of_record hr]
    exact .of_edit (u := State.withPoolFree _ _) rfl hr rfl rfl rfl fun _ _ => rfl
  | unsubscribe i n =>
    rcases returnSubscription_cases i n s with hsame | ⟨r, hr, -, hgone⟩
    · rw [hsame]; exact .same
    · rw [hgone]; exact .of_edit (u := State.withPoolFree _ _) rfl hr rfl rfl rfl fun _ _ => rfl
  | configure | freeze | unfreeze => exact .same
  | clear =>
    rw [slot_clearTable, Slot.cleared]
    split
    · rename_i r hr
      exact .cleared rfl hr fun z => by rw [State.frozen, zone_clearTable]; rfl
    · exact .same

/-! ## One move at one zone -/

/-- What a move from `s` may leave in the entry of zone `z`. -/
inductive ZoneChange (steady : Bool) (s : State) (z : ZoneIx) : Zone → Prop
  | same : ZoneChange steady s z (s.zone z)
  | counted (c : Nat) (cc : Word) (hunfrozen : TableSound s → s.frozen z = false) :
      ZoneChange steady s z { s.zone z with count := c, changeCount := cc }
  | configured {x : Zone} (h : Configures z x s) : ZoneChange steady s z x
  | frozen (hsteady : steady = true) (d : Nat) : ZoneChange steady s z { s.zone z with freeze := some d }
  | thawed (hsteady : steady = false) : ZoneChange steady s z { s.zone z with freeze := none }
  | cleared (hsteady : steady = false) : ZoneChange steady s z (Zone.cleared (s.zone z))

theorem ZoneChange.of_setZone {x : Zone} {y : ZoneIx} (hzones : u.zones = (s.setZone y x).zones)
    (h : ZoneChange steady s y x) (z : ZoneIx) : ZoneChange steady s z (u.zone z) := by
  rw [zone_of_setZone hzones]
  split_ifs with hz
  · exact hz ▸ h
  · exact .same

theorem ZoneChange.of_zones (h : u.zones = s.zones) (z : ZoneIx) : ZoneChange steady s z (u.zone z) :=
  State.zone_congr h z ▸ .same

theorem Move.zone (h : Move steady k s u) (z : ZoneIx) : ZoneChange steady s z (u.zone z) := by
  cases h with
  | outside htables => exact .of_zones (congrArg Tables.zones htables) z
  | edit => exact .same
  | visible hr hedit hrevision hunfrozen =>
    exact .of_setZone (visibleChange_after ..).zone (.counted _ _ (hedit.tag ▸ hunfrozen)) z
  | retire hr hunfrozen => exact .of_setZone (retireSlot_spec s hr).zone (.counted _ _ hunfrozen) z
  | subscribe hr => rw [addSubscription_of_record hr]; exact .same
  | unsubscribe i n =>
    rcases returnSubscription_cases i n s with hsame | ⟨r, hr, -, hgone⟩
    · rw [hsame]; exact .same
    · rw [hgone]; exact .same
  | configure hx => exact .of_setZone rfl (.configured hx) z
  | freeze hactive d => exact .of_setZone rfl (.frozen rfl d) z
  | unfreeze y => exact .of_setZone rfl (.thawed rfl) z
  | clear => rw [zone_clearTable]; exact .cleared rfl

/-- A steady move thaws no zone. -/
theorem Move.frozen_of_steady (h : Move true k s u) (hs : s.frozen z = true) : u.frozen z = true := by
  have hzone := h.zone z
  unfold State.frozen at *
  generalize u.zone z = y at *
  cases hzone with
  | same | counted => exact hs
  | configured hx => rw [hx.kept.2.2]; exact hs
  | frozen => rfl
  | thawed hsteady | cleared hsteady => cases hsteady

/-- The other moves freeze none. -/
theorem Move.frozen_of_frozen (h : Move false k s u) (hu : u.frozen z = true) : s.frozen z = true := by
  have hzone := h.zone z
  unfold State.frozen at *
  generalize u.zone z = y at *
  cases hzone with
  | same | counted => exact hu
  | configured hx => rw [hx.kept.2.2] at hu; exact hu
  | frozen hsteady => cases hsteady
  | thawed | cleared => cases hu

/-! ## A zone that stays frozen -/

/-- From `s` to `u` the records of zone `z` show what they showed, and its counts stand (R46, R93). -/
structure Holds (z : ZoneIx) (s u : State) : Prop where
  forth : ∀ i r, s.record i = some r → zoneOf r.tag = z →
    ∃ r', u.record i = some r' ∧ r'.tag = r.tag ∧ r'.image = r.image ∧ r'.revision = r.revision ∧ r'.state = r.state
  back : ∀ i r', u.record i = some r' → zoneOf r'.tag = z → ∃ r, s.record i = some r ∧ r.tag = r'.tag
  counts : (u.zone z).count = (s.zone z).count ∧ (u.zone z).changeCount = (s.zone z).changeCount

theorem Holds.refl (z : ZoneIx) (s : State) : Holds z s s :=
  ⟨fun _ r hr _ => ⟨r, hr, rfl, rfl, rfl, rfl⟩, fun _ r hr _ => ⟨r, hr, rfl⟩, rfl, rfl⟩

theorem Holds.trans (h : Holds z s u) (g : Holds z u v) : Holds z s v := by
  refine ⟨fun i r hr hz => ?_, fun i r hr hz => ?_, g.counts.1.trans h.counts.1, g.counts.2.trans h.counts.2⟩
  · obtain ⟨r', hr', htag, himage, hrevision, hstate⟩ := h.forth i r hr hz
    obtain ⟨r'', hr'', htag', himage', hrevision', hstate'⟩ := g.forth i r' hr' (htag ▸ hz)
    exact ⟨r'', hr'', htag'.trans htag, himage'.trans himage, hrevision'.trans hrevision, hstate'.trans hstate⟩
  · obtain ⟨r', hr', htag⟩ := g.back i r hr hz
    obtain ⟨r'', hr'', htag'⟩ := h.back i r' hr' (htag ▸ hz)
    exact ⟨r'', hr'', htag'.trans htag⟩

theorem Holds.of_tables (h : u.tables = s.tables) (z : ZoneIx) : Holds z s u := by
  have hrecord := State.record_congr (congrArg Tables.slots h)
  have hzone := State.zone_congr (congrArg Tables.zones h) z
  exact ⟨fun i r hr _ => ⟨r, hrecord i ▸ hr, rfl, rfl, rfl, rfl⟩, fun i r hr _ => ⟨r, hrecord i ▸ hr, rfl⟩,
    congrArg Zone.count hzone, congrArg Zone.changeCount hzone⟩

theorem State.record_of_slot {x : Slot} (h : s.slot i = x) : s.record i = x.record := congrArg Slot.record h

theorem Move.holds (h : Move steady k s u) (hsound : TableSound s) (hs : s.frozen z = true) (hu : u.frozen z = true) :
    Holds z s u := by
  have hfrozen : ∀ {t : Tag}, zoneOf t = z → s.frozen (zoneOf t) = true := fun ht => ht ▸ hs
  refine ⟨fun i r hr hz => ?_, fun i r' hr' hz => ?_, ?_⟩
  · have hslot := h.slot i
    generalize hx : u.slot i = x at hslot
    rw [State.record_of_slot hx]
    cases hslot with
    | same => exact ⟨r, hr, rfl, rfl, rfl, rfl⟩
    | @edited r0 r' hr0 htag himage hrevision hstate =>
      obtain rfl := Option.some.inj (hr.symm.trans hr0)
      exact ⟨r', rfl, htag, himage, hrevision, hstate hsound (hfrozen hz)⟩
    | shown _ hr0 _ hunfrozen | retired _ hr0 hunfrozen =>
      obtain rfl := Option.some.inj (hr.symm.trans hr0)
      exact absurd (hfrozen hz) (by simp [hunfrozen hsound])
    | cleared _ _ hthawed => exact absurd hu (by simp [hthawed])
  · have hslot := h.slot i
    generalize hx : u.slot i = x at hslot
    rw [State.record_of_slot hx] at hr'
    cases hslot with
    | same => exact ⟨r', hr', rfl⟩
    | edited hr htag | shown _ hr _ _ htag => exact ⟨_, hr, Option.some.inj hr' ▸ htag.symm⟩
    | retired | cleared => cases hr'
  · have hzone := h.zone z
    unfold State.frozen at hu
    generalize u.zone z = y at *
    cases hzone with
    | same | frozen => exact ⟨rfl, rfl⟩
    | counted _ _ hunfrozen => exact absurd hs (by simp [hunfrozen hsound])
    | configured hx => exact ⟨hx.kept.1, hx.kept.2.1⟩
    | thawed | cleared => cases hu

/-- A creation is in another zone. -/
theorem Holds.birth {n : NewRecord} (hn : Births n s) (hsound : TableSound s) (hs : s.frozen z = true) :
    (createRecord n s).frozen z = true ∧ Holds z s (createRecord n s) := by
  obtain ⟨i, hfree, hu⟩ := hn.created_free hsound
  have hne : zoneOf (n.made s).tag ≠ z := fun hz => by
    rw [n.made_tag] at hz
    exact absurd hs (by simp [← hz, hn.unfrozen])
  have hrecord := record_of_setRecord hu.record
  have hzone : (createRecord n s).zone z = s.zone z := (zone_of_setZone hu.zone z).trans (if_neg (Ne.symm hne))
  refine ⟨by rw [State.frozen, hzone]; exact hs, fun j r hr _ => ⟨r, ?_, rfl, rfl, rfl, rfl⟩, fun j r hr hz => ⟨r, ?_, rfl⟩,
    congrArg Zone.count hzone, congrArg Zone.changeCount hzone⟩
  · rw [hrecord, if_neg, hr]
    rintro rfl
    rw [hfree] at hr
    cases hr
  · rw [hrecord] at hr
    split_ifs at hr
    · exact absurd (Option.some.inj hr ▸ hz) hne
    · exact hr

/-! ## What a step is made of -/

/-- A step is RESET, the part's own turn, a command of steady moves and creations, or moves that thaw. -/
theorem step_shape (hstep : step s = .next t) :
    (∃ a rate, s.pending.head? = some (.reset a rate) ∧ t.tables = (State.powerOn ⟨a, rate⟩).tables) ∨
    t.tables = s.tables ∨
    ∃ c rest, s.pending = c :: rest ∧ exec c (s.withPending rest) = .next t ∧
      (mayThaw c = false ∨
        ∃ k, (s.deferred.length ≤ 32 → k ≤ 600) ∧ Moves false k (s.withPending rest) t) := by
  unfold step at hstep
  split at hstep
  · rename_i c rest hpending
    by_cases hreset : ∃ a rate, c = .reset a rate
    · obtain ⟨a, rate, rfl⟩ := hreset
      rw [exec_reset, Host.Outcome.next.injEq] at hstep
      subst hstep
      refine .inl ⟨a, rate, by rw [hpending]; rfl, ?_⟩
      generalize State.powerOn ⟨a, rate⟩ = p
      rfl
    · refine .inr (.inr ⟨c, rest, hpending, hstep, ?_⟩)
      cases hthaw : mayThaw c with
      | false => exact .inl rfl
      | true =>
        obtain ⟨u, k, hu, hk, hmoves⟩ := exec_thaws c (s.withPending rest) hthaw fun a rate hc => hreset ⟨a, rate, hc⟩
        obtain rfl : u = t := Host.Outcome.next.inj (hu.symm.trans hstep)
        exact .inr ⟨k, hk, hmoves⟩
  · obtain rfl : s.ownTurn = t := Host.Outcome.next.inj hstep
    exact .inr (.inl (ownTurn_beside s).1)

/-- Settles O13: the moves hold a zone that is frozen before and after them, steady moves thaw none, and the others freeze
none. -/
theorem frozenZoneHoldsItsImage : Obligations.FrozenZoneHoldsItsImage := by
  intro s t z hsound hstep hs ht
  have hholds : Holds z s t := by
    rcases step_shape hstep with ⟨a, rate, -, htables⟩ | htables | ⟨c, rest, -, hexec, hthaw | ⟨k, -, hmoves⟩⟩
    · have hzone : t.zone z = Zone.reset := (State.zone_congr (congrArg Tables.zones htables) z).trans (zone_powerOn _ z)
      rw [State.frozen, hzone] at ht
      cases ht
    · exact .of_tables htables z
    · obtain ⟨u, hu, hcourse⟩ := exec_course c (s.withPending rest) hthaw
      obtain rfl : u = t := Host.Outcome.next.inj (hu.symm.trans hexec)
      have hkept := hcourse.induct
        (P := fun s u => TableSound s → s.frozen z = true → TableSound u ∧ u.frozen z = true ∧ Holds z s u)
        (fun s h hz => ⟨h, hz, .refl z s⟩)
        (fun h g hsound hz => by
          obtain ⟨hsound', hz', hholds⟩ := h hsound hz
          obtain ⟨hsound'', hz'', hholds'⟩ := g hsound' hz'
          exact ⟨hsound'', hz'', hholds.trans hholds'⟩)
        (fun hmove hsound hz =>
          have hz' := hmove.frozen_of_steady hz
          ⟨hmove.tableSound hsound, hz', hmove.holds hsound hz hz'⟩)
        (fun hn hsound hz => ⟨hsound.birth hn, Holds.birth hn hsound hz⟩)
      obtain ⟨-, -, hholds⟩ := hkept (TableSound.of_tables (s := s) (u := s.withPending rest) rfl hsound) hs
      exact (Holds.of_tables (s := s) (u := s.withPending rest) rfl z).trans hholds
    · have hkept := hmoves.induct
        (P := fun s u => TableSound s → TableSound u ∧ (u.frozen z = true → s.frozen z = true ∧ Holds z s u))
        (fun s h => ⟨h, fun hz => ⟨hz, .refl z s⟩⟩)
        (fun h g hsound => by
          obtain ⟨hsound', hback⟩ := h hsound
          obtain ⟨hsound'', hback'⟩ := g hsound'
          refine ⟨hsound'', fun hz => ?_⟩
          obtain ⟨hz', hholds'⟩ := hback' hz
          obtain ⟨hz'', hholds⟩ := hback hz'
          exact ⟨hz'', hholds.trans hholds'⟩)
        (fun hmove hsound => ⟨hmove.tableSound hsound, fun hz =>
          have hz' := hmove.frozen_of_frozen hz
          ⟨hz', hmove.holds hsound hz' hz⟩⟩)
      obtain ⟨-, hback⟩ := hkept (TableSound.of_tables (s := s) (u := s.withPending rest) rfl hsound)
      exact (Holds.of_tables (s := s) (u := s.withPending rest) rfl z).trans (hback ht).2
  exact ⟨hholds.forth, hholds.back, hholds.counts⟩

end Sys2Proof.Machine
end

section
/-! PROOF. What the moves do to the slots, counted: incarnation, revision and image over a step (R4, R5, R9, R10). -/

namespace Sys2Proof.Machine

variable {s u v t : State} {i j : SlotIx} {r r' : Record} {steady : Bool} {k l : Nat}

/-- What `k` changes leave of slot `j`: its record, with its revision moved by each change that shows (R10); no record
where there was one, under the next incarnation (R4); or a FREE slot. -/
inductive Fate (steady : Bool) (k : Nat) (j : SlotIx) (s u : State) : Prop
  | stays {r r' : Record} (m : Nat) (hm : m ≤ k) (hr : s.record j = some r) (hr' : u.record j = some r')
      (hinc : u.incarnation j = s.incarnation j) (hrevision : r'.revision = r.revision + BitVec.ofNat 16 m)
      (himage : m = 0 → r'.image = r.image)
  | ceases {r : Record} (hk : steady = true → 0 < k) (hr : s.record j = some r) (hu : u.record j = none)
      (hinc : u.incarnation j = s.incarnation j + 1)
  | free (hs : s.record j = none) (hu : u.record j = none) (hinc : u.incarnation j = s.incarnation j)

theorem Fate.of_slot (h : u.slot j = s.slot j) : Fate steady k j s u := by
  have hrecord : u.record j = s.record j := congrArg Slot.record h
  have hinc : u.incarnation j = s.incarnation j := congrArg Slot.incarnation h
  cases hr : s.record j with
  | none => exact .free hr (hrecord.trans hr) hinc
  | some r => exact .stays 0 (Nat.zero_le k) hr (hrecord.trans hr) hinc (by simp) fun _ => rfl

theorem Fate.weaken (h : Fate steady k j s u) (hkl : k ≤ l) : Fate steady l j s u := by
  cases h with
  | stays m hm hr hr' hinc hrevision himage => exact .stays m (hm.trans hkl) hr hr' hinc hrevision himage
  | ceases hk hr hu hinc => exact .ceases (fun h => (hk h).trans_le hkl) hr hu hinc
  | free hs hu hinc => exact .free hs hu hinc

theorem Fate.trans (h : Fate steady k j s u) (g : Fate steady l j u v) : Fate steady (k + l) j s v := by
  cases h with
  | stays m hm hr hr' hinc hrevision himage =>
    cases g with
    | stays m' hm' hr1 hr1' hinc' hrevision' himage' =>
      obtain rfl := Option.some.inj (hr'.symm.trans hr1)
      refine .stays (m + m') (Nat.add_le_add hm hm') hr hr1' (hinc'.trans hinc) ?_ fun h0 => ?_
      · rw [hrevision', hrevision, BitVec.add_assoc, BitVec.ofNat_add]
      · obtain ⟨h0, h0'⟩ := Nat.add_eq_zero_iff.mp h0
        exact (himage' h0').trans (himage h0)
    | ceases hk hr1 hv hinc' => exact .ceases (fun hb => Nat.add_pos_right k (hk hb)) hr hv (by rw [hinc', hinc])
    | free hu => rw [hr'] at hu; cases hu
  | ceases hk hr hu hinc =>
    cases g with
    | stays _ _ hr1 | ceases _ hr1 => rw [hu] at hr1; cases hr1
    | free _ hv hinc' => exact .ceases (fun hb => Nat.add_pos_left (hk hb) l) hr hv (hinc'.trans hinc)
  | free hs hu hinc =>
    cases g with
    | stays _ _ hr1 | ceases _ hr1 => rw [hu] at hr1; cases hr1
    | free _ hv hinc' => exact .free hs hv (hinc'.trans hinc)

theorem Move.fate (h : Move steady k s u) (j : SlotIx) : Fate steady k j s u := by
  have hslot := h.slot j
  generalize hx : u.slot j = x at hslot
  have hrecord : u.record j = x.record := congrArg Slot.record hx
  have hinc : u.incarnation j = x.incarnation := congrArg Slot.incarnation hx
  cases hslot with
  | same => exact .of_slot hx
  | edited hr _ himage hrevision _ =>
    exact .stays 0 (Nat.zero_le k) hr hrecord hinc (by simpa using hrevision) fun _ => himage
  | shown hk hr hrevision => exact .stays 1 hk.ge hr hrecord hinc hrevision fun h => absurd h Nat.one_ne_zero
  | retired hk hr => exact .ceases (fun _ => hk ▸ Nat.one_pos) hr hrecord hinc
  | cleared hsteady hr => exact .ceases (fun h => absurd (hsteady.symm.trans h) Bool.false_ne_true) hr hrecord hinc

theorem Moves.fate (h : Moves steady k s u) (j : SlotIx) : Fate steady k j s u := by
  induction h with
  | refl => exact .of_slot rfl
  | snoc _ g ih => exact ih.trans (g.fate j)
  | weaken _ hkl ih => exact ih.weaken hkl

/-- Steady moves of which none shows keep every record and its image. -/
theorem Fate.of_steady (h : Fate true 0 j s u) : u.incarnation j = s.incarnation j ∧
    ∀ r, s.record j = some r → ∃ r', u.record j = some r' ∧ r'.image = r.image := by
  cases h with
  | stays m hm hr hr' hinc _ himage =>
    refine ⟨hinc, fun r0 hr0 => ⟨_, hr', ?_⟩⟩
    obtain rfl := Option.some.inj (hr.symm.trans hr0)
    exact himage (Nat.le_zero.mp hm)
  | ceases hk => exact absurd (hk rfl) (Nat.lt_irrefl 0)
  | free hs _ hinc => exact ⟨hinc, fun r hr => by rw [hs] at hr; cases hr⟩

/-- A creation leaves every incarnation (R4). -/
theorem createRecord_slots (n : NewRecord) (s : State) :
    (createRecord n s).slots = s.slots ∨ ∃ i r, (createRecord n s).slots = (s.setRecord i r).slots ∧ i ∈ s.freeQueue := by
  cases hqueue : s.freeQueue with
  | nil => exact .inl (by rw [createRecord, hqueue])
  | cons i rest =>
    exact .inr ⟨i, _, (createRecord_spec s n hqueue).record, List.mem_cons_self⟩

theorem incarnation_createRecord (n : NewRecord) (s : State) (j : SlotIx) :
    (createRecord n s).incarnation j = s.incarnation j := by
  rcases createRecord_slots n s with h | ⟨i, r, h, -⟩
  · exact State.incarnation_congr h j
  · exact (State.incarnation_congr h j).trans (State.incarnation_setRecord s i j r)

theorem isSome_record_createRecord (n : NewRecord) (h : (s.record j).isSome = true) :
    ((createRecord n s).record j).isSome = true := by
  rcases createRecord_slots n s with hslots | ⟨i, r, hslots, -⟩
  · rwa [State.record_congr hslots]
  · rw [record_of_setRecord hslots]
    split_ifs
    · rfl
    · exact h

/-! ## Over a step -/

/-- A slot's incarnation stays, with its record, or moves by one as its record ceases (R4). -/
def FreedByOne (j : SlotIx) (s u : State) : Prop :=
  (u.incarnation j = s.incarnation j ∧ ((s.record j).isSome = true → (u.record j).isSome = true)) ∨
    (u.incarnation j = s.incarnation j + 1 ∧ (s.record j).isSome = true ∧ u.record j = none)

theorem Fate.freedByOne (h : Fate steady k j s u) : FreedByOne j s u := by
  cases h with
  | stays _ _ _ hr' hinc => exact .inl ⟨hinc, fun _ => by rw [hr']; rfl⟩
  | ceases _ hr hu hinc => exact .inr ⟨hinc, by rw [hr]; rfl, hu⟩
  | free hs _ hinc => exact .inl ⟨hinc, fun h => by rw [hs] at h; cases h⟩

theorem Took.freedByOne (h : Took k s u) (j : SlotIx) : FreedByOne j s u := by
  cases h with
  | moves h => exact (h.fate j).freedByOne
  | @birth v n h hn g =>
    obtain ⟨hinc, hkept⟩ := (h.fate j).of_steady
    obtain ⟨hinc', hkept'⟩ := (g.fate j).of_steady
    refine .inl ⟨by rw [hinc', incarnation_createRecord, hinc], fun hs => ?_⟩
    obtain ⟨r, hr⟩ := Option.isSome_iff_exists.mp hs
    obtain ⟨r1, hr1, -⟩ := hkept r hr
    obtain ⟨r2, hr2⟩ := Option.isSome_iff_exists.mp (isSome_record_createRecord (n := n) (Option.isSome_of_eq_some hr1))
    obtain ⟨r3, hr3, -⟩ := hkept' r2 hr2
    exact Option.isSome_of_eq_some hr3

/-- The one frame of a step is the one of its command. -/
theorem atMostOneFrame_of_head {c : Instr} {rest : List Instr} (hpending : s.pending = c :: rest)
    (hone : ∀ c ∈ s.pending.head?, s.AtMostOneFrame c) : (s.withPending rest).AtMostOneFrame c :=
  hone c (by rw [hpending]; rfl)

/-- Settles O14: a slot's fate in moves without a creation; and with one, nothing ceases. -/
theorem incarnationMovesAsASlotIsFreed : Obligations.IncarnationMovesAsASlotIsFreed := by
  intro s t hreset hone hstep j
  rcases step_shape hstep with ⟨a, rate, hhead, -⟩ | htables | ⟨c, rest, hpending, hexec, hthaw | ⟨k, -, hmoves⟩⟩
  · exact absurd hhead (hreset a rate)
  · exact (Fate.of_slot (steady := true) (k := 0) (State.slot_congr (congrArg Tables.slots htables) j)).freedByOne
  · obtain ⟨u, hu, htook⟩ := exec_takes c (s.withPending rest) hthaw (atMostOneFrame_of_head hpending hone)
    obtain rfl : u = t := Host.Outcome.next.inj (hu.symm.trans hexec)
    exact htook.freedByOne j
  · exact (hmoves.fate j).freedByOne

/-- A record that stays, with its revision, shows what it showed (R9, R10). -/
def ImageKept (j : SlotIx) (s u : State) : Prop :=
  ∀ r r', s.record j = some r → u.record j = some r' → u.incarnation j = s.incarnation j → r'.revision = r.revision →
    r'.image = r.image

/-- Fewer than 65536 changes cannot bring a revision round (R5). -/
theorem Fate.imageKept (h : Fate steady k j s u) (hk : k ≤ 600) : ImageKept j s u := by
  intro r r' hr hr' hinc hrevision
  cases h with
  | stays m hm hr0 hr0' _ hmoved himage =>
    obtain rfl := Option.some.inj (hr.symm.trans hr0)
    obtain rfl := Option.some.inj (hr'.symm.trans hr0')
    refine himage ?_
    have hcycle := congrArg BitVec.toNat (hmoved.symm.trans hrevision)
    have hlt := r.revision.isLt
    rw [BitVec.toNat_add, BitVec.toNat_ofNat] at hcycle
    omega
  | ceases _ _ hu => rw [hu] at hr'; cases hr'
  | free hs => rw [hs] at hr; cases hr

theorem Took.imageKept (h : Took k s u) (hsound : TableSound s) (hk : k ≤ 600) (j : SlotIx) : ImageKept j s u := by
  cases h with
  | moves h => exact (h.fate j).imageKept hk
  | @birth v n h hn g =>
    intro r r' hr hr' _ _
    obtain ⟨r1, hr1, himage⟩ := (h.fate j).of_steady.2 r hr
    have hv : TableSound v := h.induct (P := fun s u => TableSound s → TableSound u) (fun _ => id) (fun h g => g ∘ h)
      Move.tableSound hsound
    obtain ⟨i, hfree, hu⟩ := hn.created_free hv
    have hr2 : (createRecord n v).record j = some r1 := by
      rw [record_of_setRecord hu.record, if_neg, hr1]
      rintro rfl
      rw [hfree] at hr1
      cases hr1
    obtain ⟨r3, hr3, himage'⟩ := (g.fate j).of_steady.2 r1 hr2
    obtain rfl := Option.some.inj (hr'.symm.trans hr3)
    exact himage'.trans himage

/-- Settles O15: the revision counts the changes that show, and one step holds too few of them to bring it round. -/
theorem revisionMovesWithTheImage : Obligations.RevisionMovesWithTheImage := by
  intro s t hsound hdeferred hone hstep j
  rcases step_shape hstep with ⟨a, rate, -, htables⟩ | htables | ⟨c, rest, hpending, hexec, hthaw | ⟨k, hk, hmoves⟩⟩
  · intro r r' _ hr'
    rw [State.record_congr (congrArg Tables.slots htables), record_powerOn] at hr'
    cases hr'
  · exact (Fate.of_slot (steady := true) (k := 0) (State.slot_congr (congrArg Tables.slots htables) j)).imageKept
      (Nat.zero_le 600)
  · obtain ⟨u, hu, htook⟩ := exec_takes c (s.withPending rest) hthaw (atMostOneFrame_of_head hpending hone)
    obtain rfl : u = t := Host.Outcome.next.inj (hu.symm.trans hexec)
    exact htook.imageKept (TableSound.of_tables (s := s) (u := s.withPending rest) rfl hsound) (by decide) j
  · exact (hmoves.fate j).imageKept (hk hdeferred.bounded)

end Sys2Proof.Machine
end

section
/-! PROOF. The thaw, slot by slot (R95 to R99). -/

namespace Sys2Proof.Machine

variable {s u v t : State} {i j : SlotIx} {r r' : Record} {z : ZoneIx} {e : Deferred}

/-! ## Slots that show a record -/

/-- A slot holds the record `r` under incarnation `inc`, but for its revision and its missed markers. -/
def Slot.Shows (x : Slot) (inc : Byte) (r : Record) : Prop :=
  x.incarnation = inc ∧ ∃ n l, x.record = some { r with revision := n, subscribers := l } ∧
    l.map (·.node) = r.subscribers.map (·.node)

theorem shows_setRecord (i : SlotIx) (r : Record) (s : State) : ((s.setRecord i r).slot i).Shows (s.incarnation i) r := by
  rw [State.setRecord, State.slot_setSlot_self]
  exact ⟨rfl, r.revision, r.subscribers, rfl, rfl⟩

/-- What a thaw leaves of everything but the records of zone `z`. -/
structure BesideZone (z : ZoneIx) (s u : State) : Prop where
  deferred : u.deferred = s.deferred
  host : u.host = s.host
  time : u.timeBase = s.timeBase
  others : ∀ y, y ≠ z → u.zone y = s.zone y
  settings : (u.zone z).lease = (s.zone z).lease ∧ (u.zone z).grace = (s.zone z).grace ∧
    (u.zone z).freeze = (s.zone z).freeze

theorem BesideZone.refl (z : ZoneIx) (s : State) : BesideZone z s s := ⟨rfl, rfl, rfl, fun _ _ => rfl, rfl, rfl, rfl⟩

theorem BesideZone.trans (h : BesideZone z s u) (g : BesideZone z u v) : BesideZone z s v := by
  obtain ⟨hlease, hgrace, hfreeze⟩ := h.settings
  obtain ⟨hlease', hgrace', hfreeze'⟩ := g.settings
  exact ⟨g.deferred.trans h.deferred, g.host.trans h.host, g.time.trans h.time,
    fun y hy => (g.others y hy).trans (h.others y hy), hlease'.trans hlease, hgrace'.trans hgrace, hfreeze'.trans hfreeze⟩

theorem BesideZone.of_setZone {x : Zone} (hzones : u.zones = (s.setZone z x).zones) (hdeferred : u.deferred = s.deferred)
    (hhost : u.host = s.host) (htime : u.timeBase = s.timeBase)
    (hx : x.lease = (s.zone z).lease ∧ x.grace = (s.zone z).grace ∧ x.freeze = (s.zone z).freeze) : BesideZone z s u := by
  have hzone := zone_of_setZone hzones
  exact ⟨hdeferred, hhost, htime, fun y hy => by rw [hzone, if_neg hy], by rw [hzone, if_pos rfl]; exact hx⟩

/-- One change of the record in slot `i`, of zone `z`. -/
structure Changed (z : ZoneIx) (i : SlotIx) (P : Slot → Prop) (s u : State) : Prop where
  beside : BesideZone z s u
  slots : ∀ j, j ≠ i → u.slot j = s.slot j
  slot : P (u.slot i)

theorem Changed.of_setRecord (z : ZoneIx) (i : SlotIx) (r : Record) (s : State) :
    Changed z i (fun x => x = ⟨s.incarnation i, some r⟩) s (s.setRecord i r) :=
  ⟨⟨rfl, rfl, rfl, fun _ _ => rfl, rfl, rfl, rfl⟩, fun _ hj => (State.slot_setSlot ..).trans (if_neg hj),
    State.slot_setSlot_self ..⟩

theorem VisiblyChanged.changed (h : VisiblyChanged i r' s u) :
    Changed (zoneOf r'.tag) i (·.Shows (s.incarnation i) r') s u := by
  have hslot : ∀ j, u.slot j = _ := fun j => (State.slot_congr h.record j).trans (State.slot_setSlot ..)
  refine ⟨.of_setZone h.zone (by rw [h.rest]) (by rw [h.rest]) (by rw [h.rest]) ⟨rfl, rfl, rfl⟩,
    fun j hj => (hslot j).trans (if_neg hj), ?_⟩
  rw [hslot, if_pos rfl]
  exact ⟨rfl, _, _, rfl, by simp⟩

theorem Becomes.changed (h : Becomes i r r' s u) : Changed (zoneOf r'.tag) i (·.Shows (s.incarnation i) r') s u := by
  unfold Becomes at h
  split_ifs at h
  · subst h
    have hset := Changed.of_setRecord (zoneOf r'.tag) i r' s
    exact ⟨hset.beside, hset.slots, shows_setRecord i r' s⟩
  · exact h.changed

theorem Retired.changed (h : Retired i r s u) : Changed (zoneOf r.tag) i (fun x => x = ⟨s.incarnation i + 1, none⟩) s u := by
  have hslot : ∀ j, u.slot j = _ := fun j => (State.slot_congr h.freed j).trans (State.slot_setSlot ..)
  exact ⟨.of_setZone h.zone (by rw [h.rest]) (by rw [h.rest]) (by rw [h.rest]) ⟨rfl, rfl, rfl⟩,
    fun j hj => (hslot j).trans (if_neg hj), (hslot i).trans (if_pos rfl)⟩

/-! ## The second stage -/

/-- The record that a parked entry makes of `r` (R58, R96). -/
def Record.unparked (e : Deferred) (s : State) (r : Record) : Record :=
  { r with
    state := .live
    processValue := some e.value
    lastSequence := some e.sequence
    lastUpdate := s.timeBase
    leaseDeadline := leaseAfter s r
    graceDeadline := if r.state = .stale then none else r.graceDeadline
    pendingAge := pendingAfter r }

/-- Entries of records of zone `z`, one for a slot. -/
structure ParkedIn (z : ZoneIx) (l : List Deferred) (s : State) : Prop where
  once : l.Pairwise fun a b => a.slot ≠ b.slot
  held : ∀ e ∈ l, ∃ r n, s.record e.slot = some r ∧ s.incarnation e.slot = e.incarnation ∧ zoneOf r.tag = z ∧
    r.producer = .node n

theorem applyDeferred_changed {n : Addr} (hr : s.record e.slot = some r) (hinc : s.incarnation e.slot = e.incarnation)
    (hz : zoneOf r.tag = z) (hp : r.producer = .node n) :
    Changed z e.slot (·.Shows (s.incarnation e.slot) (r.unparked e s)) s (applyDeferred s e) := by
  obtain ⟨r0, hr0, hbecomes⟩ := applyDeferred_spec hr hinc hp
  obtain rfl := Option.some.inj (hr.symm.trans hr0)
  exact hz ▸ Becomes.changed (r' := r.unparked e s) hbecomes

theorem ParkedIn.next {l : List Deferred} (h : ParkedIn z (e :: l) s) : ParkedIn z l (applyDeferred s e) := by
  obtain ⟨hne, honce⟩ := List.pairwise_cons.mp h.once
  obtain ⟨r, n, hr, hinc, hz, hp⟩ := h.held e List.mem_cons_self
  have hslots := (applyDeferred_changed hr hinc hz hp).slots
  refine ⟨honce, fun e' he' => ?_⟩
  obtain ⟨r', n', hr', hinc', hrest⟩ := h.held e' (List.mem_cons_of_mem e he')
  have hslot := hslots e'.slot (Ne.symm (hne e' he'))
  exact ⟨r', n', (congrArg Slot.record hslot).trans hr', (congrArg Slot.incarnation hslot).trans hinc', hrest⟩

theorem inTurn_unparked {l : List Deferred} (h : ParkedIn z l s) : InTurn Unparked l s (l.foldl applyDeferred s) := by
  refine inTurn_foldl (Q := ParkedIn z) (fun e l s h => ?_) (fun e l s h => h.next) l s h
  obtain ⟨r, n, hr, hinc, -, hp⟩ := h.held e List.mem_cons_self
  exact applyDeferred_spec hr hinc hp

theorem unparked_congr (h : BesideZone z s u) (hz : zoneOf r.tag = z) : r.unparked e u = r.unparked e s := by
  unfold Record.unparked leaseAfter
  rw [hz, h.time, h.settings.1]

/-- The parked entries, all of them. -/
structure UnparkedAll (z : ZoneIx) (l : List Deferred) (s u : State) : Prop where
  beside : BesideZone z s u
  others : ∀ i, (∀ e ∈ l, e.slot ≠ i) → u.slot i = s.slot i
  parked : ∀ e ∈ l, ∀ r, s.record e.slot = some r →
    (u.slot e.slot).Shows (s.incarnation e.slot) (r.unparked e s)

theorem unparkedAll {l : List Deferred} : ∀ {s : State}, ParkedIn z l s → UnparkedAll z l s (l.foldl applyDeferred s) := by
  induction l with
  | nil => exact fun _ => ⟨.refl z _, fun _ _ => rfl, fun _ h => absurd h List.not_mem_nil⟩
  | cons e l ih =>
    intro s h
    obtain ⟨r, n, hr, hinc, hz, hp⟩ := h.held e List.mem_cons_self
    have hfirst := applyDeferred_changed hr hinc hz hp
    have hrest := ih h.next
    have hne := (List.pairwise_cons.mp h.once).1
    refine ⟨hfirst.beside.trans hrest.beside, fun i hi => ?_, fun e' he' r' hr' => ?_⟩
    · obtain ⟨hi, his⟩ := List.forall_mem_cons.mp hi
      exact (hrest.others i his).trans (hfirst.slots i (Ne.symm hi))
    · rcases List.mem_cons.mp he' with rfl | he'
      · obtain rfl := Option.some.inj (hr.symm.trans hr')
        rw [List.foldl_cons, hrest.others e'.slot fun e'' he'' => Ne.symm (hne e'' he'')]
        exact hfirst.slot
      · have hslot := hfirst.slots e'.slot (Ne.symm (hne e' he'))
        have hparked := hrest.parked e' he' r' ((congrArg Slot.record hslot).trans hr')
        obtain ⟨r0, _, hr0, _, hz', _⟩ := h.held e' (List.mem_cons_of_mem e he')
        obtain rfl := Option.some.inj (hr0.symm.trans hr')
        rwa [unparked_congr hfirst.beside hz', State.incarnation, hslot] at hparked

/-! ## The third stage -/

theorem slotsWhere_ascending (p : Record → Bool) (s : State) : (s.slotsWhere p).Pairwise fun i j => i < j := by
  have hindex : s.slots.toList.zipIdx.Pairwise fun x y => x.2 < y.2 ∧ y.2 < 512 := by
    rw [List.pairwise_iff_getElem]
    intro m n hm hn hmn
    have hlength : n < 512 := by simpa using hn
    simpa using ⟨hmn, hlength⟩
  have hsome : ∀ {x : Slot × Nat} {i : SlotIx}, (match x.1.record with
      | some r => if p r then some (Fin.ofNat 512 x.2) else none
      | none => none) = some i → Fin.ofNat 512 x.2 = i := fun hx => by
    split at hx
    · split_ifs at hx
      exact Option.some.inj hx
    · cases hx
  refine hindex.filterMap _ fun x y hxy i hi j hj => ?_
  obtain rfl := hsome hi
  obtain rfl := hsome hj
  simp only [Fin.ofNat, Fin.lt_def]
  rw [Nat.mod_eq_of_lt hxy.2, Nat.mod_eq_of_lt (hxy.1.trans hxy.2)]
  exact hxy.1

/-- A record that its pending age step makes STALE (R80). -/
def Record.staled (s : State) (r : Record) : Record :=
  { r with
    pendingAge := .noStep
    state := .stale
    graceDeadline :=
      if (s.zone (zoneOf r.tag)).grace = 0 then none else some (s.timeBase + 10 * (s.zone (zoneOf r.tag)).grace) }

/-- What the pending age step of the record `r` leaves in its slot (R80, R97). -/
def settledSlot (s : State) (inc : Byte) (r : Record) (x : Slot) : Prop :=
  if r.pendingAge = .expire ∧ r.state = .live then x.Shows inc (r.staled s)
  else if r.pendingAge = .retire ∧ r.state = .stale then x = ⟨inc + 1, none⟩
  else x = ⟨inc, some { r with pendingAge := .noStep }⟩

theorem settledSlot_expire {inc : Byte} {x : Slot} (h : r.pendingAge = .expire ∧ r.state = .live) :
    settledSlot s inc r x ↔ x.Shows inc (r.staled s) := by
  rw [settledSlot, if_pos h]

theorem settledSlot_retire {inc : Byte} {x : Slot} (h : r.pendingAge = .retire ∧ r.state = .stale) :
    settledSlot s inc r x ↔ x = ⟨inc + 1, none⟩ := by
  rw [settledSlot, if_neg (by simp [h.1]), if_pos h]

theorem settledSlot_drop {inc : Byte} {x : Slot} (hexpire : ¬ (r.pendingAge = .expire ∧ r.state = .live))
    (hretire : ¬ (r.pendingAge = .retire ∧ r.state = .stale)) :
    settledSlot s inc r x ↔ x = ⟨inc, some { r with pendingAge := .noStep }⟩ := by
  rw [settledSlot, if_neg hexpire, if_neg hretire]

theorem settlePending_changed (hr : s.record i = some r) :
    Changed (zoneOf r.tag) i (settledSlot s (s.incarnation i) r) s (settlePending s i) := by
  obtain ⟨r0, hr0, hsettled⟩ := settlePending_spec hr
  obtain rfl := Option.some.inj (hr.symm.trans hr0)
  by_cases hexpire : r.pendingAge = .expire ∧ r.state = .live
  · rw [if_pos hexpire] at hsettled
    have hset := Changed.of_setRecord (zoneOf r.tag) i { r with pendingAge := .noStep } s
    have hchanged := Becomes.changed (r' := r.staled s) hsettled
    rw [State.incarnation_setRecord] at hchanged
    exact ⟨hset.beside.trans hchanged.beside, fun j hj => (hchanged.slots j hj).trans (hset.slots j hj),
      (settledSlot_expire hexpire).mpr hchanged.slot⟩
  · rw [if_neg hexpire] at hsettled
    by_cases hretire : r.pendingAge = .retire ∧ r.state = .stale
    · rw [if_pos hretire] at hsettled
      obtain ⟨hbeside, hslots, hslot⟩ := hsettled.changed
      exact ⟨hbeside, hslots, (settledSlot_retire hretire).mpr hslot⟩
    · rw [if_neg hretire] at hsettled
      obtain ⟨hbeside, hslots, hslot⟩ := Changed.of_setRecord (zoneOf r.tag) i { r with pendingAge := .noStep } s
      rw [hsettled]
      exact ⟨hbeside, hslots, (settledSlot_drop hexpire hretire).mpr hslot⟩

/-- Slots with records of zone `z`, each once. -/
structure PendingIn (z : ZoneIx) (l : List SlotIx) (s : State) : Prop where
  once : l.Nodup
  held : ∀ i ∈ l, ∃ r, s.record i = some r ∧ zoneOf r.tag = z

theorem PendingIn.next {l : List SlotIx} (h : PendingIn z (i :: l) s) : PendingIn z l (settlePending s i) := by
  obtain ⟨hne, honce⟩ := List.nodup_cons.mp h.once
  obtain ⟨r, hr, -⟩ := h.held i List.mem_cons_self
  refine ⟨honce, fun j hj => ?_⟩
  obtain ⟨r', hr', hz⟩ := h.held j (List.mem_cons_of_mem i hj)
  have hslot := (settlePending_changed hr).slots j fun hji => hne (hji ▸ hj)
  exact ⟨r', (congrArg Slot.record hslot).trans hr', hz⟩

theorem inTurn_settled {l : List SlotIx} (h : PendingIn z l s) :
    InTurn SettledPending l s (l.foldl settlePending s) := by
  refine inTurn_foldl (Q := PendingIn z) (fun i l s h => ?_) (fun i l s h => h.next) l s h
  obtain ⟨r, hr, -⟩ := h.held i List.mem_cons_self
  exact settlePending_spec hr

/-- The pending age steps, all of them. -/
structure SettledAll (z : ZoneIx) (l : List SlotIx) (s u : State) : Prop where
  beside : BesideZone z s u
  others : ∀ i, i ∉ l → u.slot i = s.slot i
  settled : ∀ i ∈ l, ∀ r, s.record i = some r → settledSlot s (s.incarnation i) r (u.slot i)

theorem settledSlot_congr {inc : Byte} {x : Slot} (h : BesideZone z s u) (hz : zoneOf r.tag = z)
    (hx : settledSlot u inc r x) : settledSlot s inc r x := by
  have hstaled : r.staled u = r.staled s := by
    unfold Record.staled
    rw [hz, h.time, h.settings.2.1]
  unfold settledSlot at hx ⊢
  rwa [hstaled] at hx

theorem settledAll {l : List SlotIx} : ∀ {s : State}, PendingIn z l s → SettledAll z l s (l.foldl settlePending s) := by
  induction l with
  | nil => exact fun _ => ⟨.refl z _, fun _ _ => rfl, fun _ h => absurd h List.not_mem_nil⟩
  | cons i l ih =>
    intro s h
    obtain ⟨r, hr, hz⟩ := h.held i List.mem_cons_self
    have hfirst := hz ▸ settlePending_changed hr
    have hrest := ih h.next
    have hne := (List.nodup_cons.mp h.once).1
    refine ⟨hfirst.beside.trans hrest.beside, fun j hj => ?_, fun j hj r' hr' => ?_⟩
    · obtain ⟨hji, hjl⟩ := not_or.mp (List.mem_cons.not.mp hj)
      exact (hrest.others j hjl).trans (hfirst.slots j hji)
    · rcases List.mem_cons.mp hj with rfl | hj
      · obtain rfl := Option.some.inj (hr.symm.trans hr')
        rw [List.foldl_cons, hrest.others j hne]
        exact hfirst.slot
      · have hslot := hfirst.slots j fun hji => hne (hji ▸ hj)
        have hsettled := hrest.settled j hj r' ((congrArg Slot.record hslot).trans hr')
        obtain ⟨r0, hr0, hz'⟩ := h.held j (List.mem_cons_of_mem i hj)
        obtain rfl := Option.some.inj (hr0.symm.trans hr')
        rw [State.incarnation, hslot] at hsettled
        exact settledSlot_congr hfirst.beside hz' hsettled

/-! ## The three stages together -/

/-- Behind the first stage, with the zone's entries out of the queue (R95, R96). -/
def thawBegun (z : ZoneIx) (s : State) : State :=
  (unfreeze z s).withDeferred (s.deferred.filter fun e => !s.deferredInZone z e)

/-- Behind the second stage (R96). -/
def thawApplied (z : ZoneIx) (s : State) : State :=
  (s.deferred.filter (s.deferredInZone z)).foldl applyDeferred (thawBegun z s)

/-- The slots of the third stage (R97). -/
def thawPending (z : ZoneIx) (s : State) : List SlotIx :=
  (thawApplied z s).slotsWhere fun r => decide (zoneOf r.tag = z) && decide (r.pendingAge ≠ .noStep)

theorem zone_thawBegun (z : ZoneIx) (s : State) : (thawBegun z s).zone z = { s.zone z with freeze := none } :=
  State.zone_setZone_self ..

theorem thawZone_eq (z : ZoneIx) (s : State) : thawZone z s = (thawPending z s).foldl settlePending (thawApplied z s) := rfl

theorem deferredInZone_iff : s.deferredInZone z e = true ↔ ∃ r, s.record e.slot = some r ∧ zoneOf r.tag = z := by
  unfold State.deferredInZone
  cases hr : s.record e.slot <;> simp

theorem parkedIn_thawBegun (h : DeferredSound s) (z : ZoneIx) :
    ParkedIn z (s.deferred.filter (s.deferredInZone z)) (thawBegun z s) := by
  refine ⟨h.oncePerSlot.filter _, fun e he => ?_⟩
  obtain ⟨hmem, hz⟩ := List.mem_filter.mp he
  obtain ⟨r, n, hr, hinc, -, -, hp⟩ := h.held e hmem
  obtain ⟨r', hr', hz⟩ := deferredInZone_iff.mp hz
  obtain rfl := Option.some.inj (hr.symm.trans hr')
  exact ⟨r, n, hr, hinc, hz, hp⟩

theorem unparkedAll_thawApplied (h : DeferredSound s) (z : ZoneIx) :
    UnparkedAll z (s.deferred.filter (s.deferredInZone z)) (thawBegun z s) (thawApplied z s) :=
  unparkedAll (parkedIn_thawBegun h z)

theorem mem_thawPending : i ∈ thawPending z s ↔
    ∃ r, (thawApplied z s).record i = some r ∧ zoneOf r.tag = z ∧ r.pendingAge ≠ .noStep := by
  simp [thawPending, mem_slotsWhere]

theorem pendingIn_thawPending (z : ZoneIx) (s : State) : PendingIn z (thawPending z s) (thawApplied z s) := by
  refine ⟨(slotsWhere_ascending ..).imp fun h => ne_of_lt h, fun i hi => ?_⟩
  obtain ⟨r, hr, hz, -⟩ := mem_thawPending.mp hi
  exact ⟨r, hr, hz⟩

theorem besideZone_thawZone (h : DeferredSound s) (z : ZoneIx) : BesideZone z (thawBegun z s) (thawZone z s) :=
  (unparkedAll_thawApplied h z).beside.trans (settledAll (pendingIn_thawPending z s)).beside

/-- A record's entry is the one in its slot (R53, R89). -/
theorem deferredOf_eq_some (h : s.deferredOf i = some e) : e ∈ s.deferred ∧ e.slot = i := by
  have hfound := List.find?_some h
  simp only [Bool.and_eq_true, decide_eq_true_eq] at hfound
  exact ⟨List.mem_of_find?_eq_some h, hfound.1⟩

theorem slot_ne_of_deferredOf (h : DeferredSound s) (hnone : s.deferredOf i = none) : ∀ e ∈ s.deferred, e.slot ≠ i := by
  rintro e he rfl
  obtain ⟨-, -, -, hinc, -⟩ := h.held e he
  have hother := List.find?_eq_none.mp hnone e he
  simp [hinc] at hother

/-- Slots of other zones, and FREE slots, are left. -/
theorem slot_thawZone_of_other (h : DeferredSound s) (hi : ∀ r, s.record i = some r → zoneOf r.tag ≠ z) :
    (thawZone z s).slot i = s.slot i := by
  have happlied : (thawApplied z s).slot i = s.slot i :=
    (unparkedAll_thawApplied h z).others i fun e he hei => by
      obtain ⟨r, hr, hz⟩ := deferredInZone_iff.mp (List.mem_filter.mp he).2
      exact hi r (hei ▸ hr) hz
  refine ((settledAll (pendingIn_thawPending z s)).others i fun hmem => ?_).trans happlied
  obtain ⟨r, hr, hz, -⟩ := mem_thawPending.mp hmem
  exact hi r ((congrArg Slot.record happlied).symm.trans hr) hz

/-- A record without an entry takes its pending age step (R97). -/
theorem slot_thawZone_of_unparked (h : DeferredSound s) (hr : s.record i = some r) (hz : zoneOf r.tag = z)
    (hnone : s.deferredOf i = none) : settledSlot s (s.incarnation i) r ((thawZone z s).slot i) := by
  have hbegun := unparkedAll_thawApplied h z
  have happlied : (thawApplied z s).slot i = s.slot i :=
    hbegun.others i fun e he => slot_ne_of_deferredOf h hnone e (List.mem_filter.mp he).1
  have hrecord : (thawApplied z s).record i = some r := (congrArg Slot.record happlied).trans hr
  have hsettled := settledAll (pendingIn_thawPending z s)
  by_cases hstep : r.pendingAge = .noStep
  · have hout : i ∉ thawPending z s := fun hmem => by
      obtain ⟨r', hr', -, hne⟩ := mem_thawPending.mp hmem
      obtain rfl := Option.some.inj (hrecord.symm.trans hr')
      exact hne hstep
    rw [settledSlot_drop (by simp [hstep]) (by simp [hstep]), thawZone_eq, hsettled.others i hout, happlied, ← hstep, ← hr]
    rfl
  · have hslot := hsettled.settled i (mem_thawPending.mpr ⟨r, hrecord, hz, hstep⟩) r hrecord
    rw [State.incarnation, happlied] at hslot
    have hsame : r.staled (thawApplied z s) = r.staled s := by
      unfold Record.staled
      rw [hz, hbegun.beside.time, hbegun.beside.settings.2.1, zone_thawBegun]
      rfl
    unfold settledSlot at hslot ⊢
    rwa [hsame] at hslot

/-- A record with an entry has it applied, and its pending age step is gone (R72, R80, R96). -/
theorem slot_thawZone_of_parked (h : DeferredSound s) (hr : s.record i = some r) (hz : zoneOf r.tag = z)
    (he : s.deferredOf i = some e) :
    ((thawZone z s).slot i).Shows (s.incarnation i) { r.unparked e s with pendingAge := .noStep } := by
  obtain ⟨hmem, rfl⟩ := deferredOf_eq_some he
  have hbegun := unparkedAll_thawApplied h z
  obtain ⟨hinc, n, l, hrecord, hnodes⟩ :=
    hbegun.parked e (List.mem_filter.mpr ⟨hmem, deferredInZone_iff.mpr ⟨r, hr, hz⟩⟩) r hr
  have hsame : r.unparked e (thawBegun z s) = r.unparked e s := by
    unfold Record.unparked leaseAfter
    rw [hz, zone_thawBegun]
    rfl
  rw [hsame] at hrecord hnodes
  have hsettled := settledAll (pendingIn_thawPending z s)
  have hnot : pendingAfter r ≠ .expire := by
    unfold pendingAfter
    split_ifs with hexpire
    · exact nofun
    · exact hexpire
  by_cases hstep : pendingAfter r = .noStep
  · have hout : e.slot ∉ thawPending z s := fun hpending => by
      obtain ⟨r', hr', -, hne⟩ := mem_thawPending.mp hpending
      obtain rfl := Option.some.inj (hrecord.symm.trans hr')
      exact hne hstep
    rw [thawZone_eq, hsettled.others _ hout]
    refine ⟨hinc, n, l, hrecord.trans ?_, hnodes⟩
    rw [← hstep]
    rfl
  · have hslot := hsettled.settled e.slot (mem_thawPending.mpr ⟨_, hrecord, hz, hstep⟩) _ hrecord
    rw [settledSlot_drop (fun hexpire => hnot hexpire.1) (fun hretire => by cases hretire.2)] at hslot
    rw [thawZone_eq, hslot]
    exact ⟨hinc, n, l, rfl, hnodes⟩

/-- Settles O24: the three stages, each change by its lemma, and what they leave of each slot. -/
theorem thawSettlesTheZone : Obligations.ThawSettlesTheZone := by
  intro s z hsound hfrozen
  have hbeside := besideZone_thawZone hsound z
  have hhost : (thawZone z s).host = s.host := hbeside.host
  refine ⟨thawZone z s, fun b htake hword => ?_, fun d hd hlt => ?_, fun d hd hle => ?_, fun e => deferredInZone_iff,
    ⟨thawApplied z s, thawPending z s, inTurn_unparked (parkedIn_thawBegun hsound z), slotsWhere_ascending _ _,
      fun i => mem_thawPending, inTurn_settled (pendingIn_thawPending z s)⟩,
    hhost, ?_, fun y hy => ?_, hbeside.deferred, fun i hi => ?_, fun i r hr hz => ?_,
    fun i r hr hz => ⟨fun e he => ?_, ?_, ?_, ?_⟩⟩
  · have hz : zoneOfWord (b.word 1) = some z := by
      refine zoneOfWord_of_lt ?_
      rw [hword, BitVec.toNat_ofNat]
      omega
    refine congrArg Host.Outcome.next (takeCommand_of_decided htake ?_)
    simp only [decideThaw, hz, hfrozen, if_true, done]
  · have hnot : reached (s.zone z).freeze s.timeBase = false := by simp [reached, hd, hlt]
    simp [exec, execFreezeLimitExpiry, hnot]
  · have hdue : reached (s.zone z).freeze s.timeBase = true := by simp [reached, hd, hle]
    refine ⟨_, by rw [exec, execFreezeLimitExpiry, if_pos hdue], ?_⟩
    rw [← hhost]
    rfl
  · rw [hbeside.settings.2.2, zone_thawBegun]
  · exact (hbeside.others y hy).trans ((State.zone_setZone ..).trans (if_neg hy))
  · exact slot_thawZone_of_other hsound fun r hr => by rw [hi] at hr; cases hr
  · exact slot_thawZone_of_other hsound fun r' hr' => Option.some.inj (hr.symm.trans hr') ▸ hz
  · exact slot_thawZone_of_parked hsound hr hz he
  · intro hnone hexpire hlive
    have hslot := (settledSlot_expire ⟨hexpire, hlive⟩).mp (slot_thawZone_of_unparked hsound hr hz hnone)
    simp only [Record.staled, hz] at hslot
    exact hslot
  · intro hnone hretire hstale
    exact (settledSlot_retire ⟨hretire, hstale⟩).mp (slot_thawZone_of_unparked hsound hr hz hnone)
  · intro hnone hother
    refine (settledSlot_drop ?_ ?_).mp (slot_thawZone_of_unparked hsound hr hz hnone)
    · rintro ⟨hp, hl⟩
      simp [hp, hl] at hother
    · rintro ⟨hp, hl⟩
      simp [hp, hl] at hother

end Sys2Proof.Machine
end

section
/-! PROOF. Every record stays sound (R2, R3, R71, R79, R80). -/

namespace Sys2Proof.Machine

variable {s u v t : State} {i j : SlotIx} {r r' : Record} {steady : Bool} {k : Nat} {z : ZoneIx} {e : Deferred}

/-! ## Steady moves and creations -/

/-- A record may wait for its zone's thaw once the zone is frozen (R79). -/
theorem RecordSound.freeze {f g : Bool} (h : RecordSound f r) (hfg : f = true → g = true) : RecordSound g r :=
  ⟨h.length, h.process, h.forced, h.node, h.host, h.grace, fun hp => hfg (h.pendingFrozen hp), h.expire, h.retire⟩

theorem frozen_of_setZone {x : Zone} {y : ZoneIx} (hzones : u.zones = (s.setZone y x).zones)
    (hfreeze : x.freeze = (s.zone y).freeze) (z : ZoneIx) : u.frozen z = s.frozen z := by
  rw [State.frozen, zone_of_setZone hzones]
  split_ifs with hz
  · rw [hfreeze, hz]; rfl
  · rfl

theorem RecordsSound.of_none (h : ∀ i, s.record i = none) : RecordsSound s := fun i r hr => by
  rw [h] at hr
  cases hr

/-- Every record is one that was there, in a zone as frozen, or the one set. -/
theorem RecordsSound.setRecord (h : RecordsSound s) (hslots : u.slots = (s.setRecord i r).slots)
    (hfrozen : ∀ z, s.frozen z = true → u.frozen z = true) (hr : RecordSound (s.frozen (zoneOf r.tag)) r) :
    RecordsSound u := fun j r' hr' => by
  rw [record_of_setRecord hslots] at hr'
  split_ifs at hr'
  · exact Option.some.inj hr' ▸ hr.freeze (hfrozen _)
  · exact (h j r' hr').freeze (hfrozen _)

theorem RecordsSound.of_slots (h : RecordsSound s) (hslots : u.slots = s.slots)
    (hfrozen : ∀ z, s.frozen z = true → u.frozen z = true) : RecordsSound u := fun j r hr =>
  (h j r (State.record_congr hslots j ▸ hr)).freeze (hfrozen _)

theorem RecordsSound.of_tables (htables : u.tables = s.tables) (h : RecordsSound s) : RecordsSound u :=
  h.of_slots (congrArg Tables.slots htables) fun z hz => by
    rwa [State.frozen, State.zone_congr (congrArg Tables.zones htables)]

theorem RecordsSound.retired (h : RecordsSound s) (hu : Retired i r s u) : RecordsSound u := fun j r' hr' => by
  rw [record_of_setSlot hu.freed] at hr'
  split_ifs at hr'
  exact (h j r' hr').freeze fun hz => by rw [frozen_of_setZone hu.zone rfl]; exact hz

/-- A change of a list of subscribers. -/
theorem RecordsSound.setList {l : List Subscription} (h : RecordsSound s) (hr : s.record i = some r)
    (hslots : u.slots = (s.setRecord i { r with subscribers := l }).slots)
    (hfrozen : ∀ z, s.frozen z = true → u.frozen z = true) : RecordsSound u :=
  h.setRecord hslots hfrozen ((h i r hr).congr r.revision r.lastUpdate l)

theorem Move.recordsSound (hmove : Move true k s u) (htable : TableSound s) (h : RecordsSound s) : RecordsSound u := by
  have hfrozen : ∀ z, s.frozen z = true → u.frozen z = true := fun z => hmove.frozen_of_steady
  cases hmove with
  | outside htables => exact h.of_tables htables
  | @edit _ _ i r r' hr hedit =>
    exact h.setRecord rfl hfrozen (hedit.tag ▸ hedit.sound rfl htable (h i r hr))
  | @visible _ _ i r r' hr hedit =>
    have hr' := hedit.sound rfl htable (h i r hr)
    rw [← hedit.tag] at hr'
    exact h.setRecord (visibleChange_after ..).record hfrozen (hr'.congr (r'.revision + 1) r'.lastUpdate _)
  | retire hr => exact h.retired (retireSlot_spec s hr)
  | subscribe hr => exact h.setList hr (by rw [addSubscription_of_record hr]; rfl) hfrozen
  | unsubscribe i n =>
    rcases returnSubscription_cases i n s with hsame | ⟨r, hr, -, hgone⟩
    · rwa [hsame]
    · exact h.setList hr (by rw [hgone]; rfl) hfrozen
  | configure | freeze => exact h.of_slots rfl hfrozen

/-- A new record is sound (R15). -/
theorem Births.recordSound {n : NewRecord} (hn : Births n s) (f : Bool) : RecordSound f (n.made s) := by
  refine RecordSound.renewed ?_ _ _
  refine ⟨hn.length, hn.value, fun v hv => ?_, hn.address, fun hhost => ⟨rfl, rfl, hn.host hhost, rfl⟩, fun _ => rfl,
    fun hp => absurd rfl hp, fun hp => ?_, fun hp => ?_⟩
  all_goals simp only [NewRecord.fields, reduceCtorEq] at *

theorem RecordsSound.birth {n : NewRecord} (hn : Births n s) (h : RecordsSound s) : RecordsSound (createRecord n s) := by
  obtain ⟨i, hu⟩ := hn.created
  exact h.setRecord hu.record (fun z hz => by rw [frozen_of_setZone hu.zone rfl]; exact hz) (hn.recordSound _)

/-! ## The thaw -/

theorem RecordSound.unparked {f g : Bool} (h : RecordSound f r) {n : Addr} (hp : r.producer = .node n)
    (hlength : e.value.length = r.length) : RecordSound g { r.unparked e s with pendingAge := .noStep } where
  length := h.length
  process := fun v hv => Option.some.inj hv ▸ hlength
  forced := h.forced
  node := h.node
  host := fun hhost => by rw [show r.producer = .host from hhost] at hp; cases hp
  grace := fun _ => by
    change (if r.state = .stale then none else r.graceDeadline) = none
    split_ifs with hstale
    · rfl
    · cases hlive : r.state with
      | live => exact h.grace hlive
      | stale => exact absurd hlive hstale
  pendingFrozen := fun hp => absurd rfl hp
  expire := nofun
  retire := nofun

theorem RecordSound.staled {f g : Bool} (h : RecordSound f r) (hexpire : r.pendingAge = .expire) :
    RecordSound g (r.staled s) where
  length := h.length
  process := h.process
  forced := h.forced
  node := h.node
  host := fun hhost => by
    obtain ⟨-, -, -, hstep⟩ := h.host hhost
    rw [hexpire] at hstep
    cases hstep
  grace := nofun
  pendingFrozen := fun hp => absurd rfl hp
  expire := nofun
  retire := nofun

theorem RecordSound.dropPending {f g : Bool} (h : RecordSound f r) :
    RecordSound g { r with pendingAge := .noStep } where
  length := h.length
  process := h.process
  forced := h.forced
  node := h.node
  host := fun hhost => by
    obtain ⟨hlive, hlease, hsequence, -⟩ := h.host hhost
    exact ⟨hlive, hlease, hsequence, rfl⟩
  grace := h.grace
  pendingFrozen := fun hp => absurd rfl hp
  expire := nofun
  retire := nofun

theorem RecordSound.of_shows {f : Bool} {x : Slot} {inc : Byte} (hx : x.Shows inc r) (hr : x.record = some r')
    (h : RecordSound f r) : RecordSound f r' := by
  obtain ⟨-, n, l, hshown, -⟩ := hx
  obtain rfl := Option.some.inj (hshown.symm.trans hr)
  exact h.congr n r.lastUpdate l

theorem RecordSound.of_settledSlot {f g : Bool} {x : Slot} {inc : Byte} (h : RecordSound f r)
    (hx : settledSlot s inc r x) (hr : x.record = some r') : RecordSound g r' := by
  by_cases hexpire : r.pendingAge = .expire ∧ r.state = .live
  · exact .of_shows ((settledSlot_expire hexpire).mp hx) hr (h.staled hexpire.1)
  · by_cases hretire : r.pendingAge = .retire ∧ r.state = .stale
    · rw [(settledSlot_retire hretire).mp hx] at hr
      cases hr
    · rw [(settledSlot_drop hexpire hretire).mp hx] at hr
      obtain rfl := Option.some.inj hr
      exact h.dropPending

/-- With the lengths and producers of the parked entries (R54 to R56), the thaw leaves sound records. -/
theorem RecordsSound.thawZone (hdeferred : DeferredSound s) (h : RecordsSound s) (z : ZoneIx) :
    RecordsSound (thawZone z s) := by
  intro i r' hr'
  cases hr : s.record i with
  | none =>
    have hslot := slot_thawZone_of_other (z := z) hdeferred fun r hr'' => by rw [hr] at hr''; cases hr''
    have hnone := (congrArg Slot.record hslot).trans hr
    rw [show (Machine.thawZone z s).record i = none from hnone] at hr'
    cases hr'
  | some r =>
    have hr0 := h i r hr
    by_cases hz : zoneOf r.tag = z
    · cases he : s.deferredOf i with
      | none => exact hr0.of_settledSlot (slot_thawZone_of_unparked hdeferred hr hz he) hr'
      | some e =>
        obtain ⟨hmem, rfl⟩ := deferredOf_eq_some he
        obtain ⟨r0, n, hr'', -, -, hlength, hp⟩ := hdeferred.held e hmem
        obtain rfl := Option.some.inj (hr.symm.trans hr'')
        exact .of_shows (slot_thawZone_of_parked hdeferred hr hz he) hr' (hr0.unparked hp hlength)
    · have hslot := slot_thawZone_of_other (z := z) hdeferred fun r0 hr'' => by
        rwa [← Option.some.inj (hr.symm.trans hr'')]
      obtain rfl := Option.some.inj (((congrArg Slot.record hslot).trans hr).symm.trans hr')
      have hzone := ((besideZone_thawZone hdeferred z).others _ hz).trans ((State.zone_setZone ..).trans (if_neg hz))
      rw [State.frozen, hzone]
      exact hr0

/-! ## Every step -/

theorem tables_takeCommand {kind : HostKind} (f : Block → State → OutcomeCode × List Word × State) (s : State) :
    (takeCommand kind f s).tables = s.tables ∨ ∃ b, (takeCommand kind f s).tables = (f b s).2.2.tables := by
  unfold takeCommand
  split
  · exact .inl rfl
  · split_ifs
    · exact .inr ⟨_, rfl⟩
    · exact .inl rfl

/-- What the commands that may thaw do to the tables. -/
theorem exec_thaws_tables (c : Instr) (s : State) (hc : mayThaw c = true) (hreset : ∀ a rate, c ≠ .reset a rate)
    (hexec : exec c s = .next t) :
    t.tables = s.tables ∨ (∃ z, t.tables = (thawZone z s).tables) ∨ t.tables = (clearTable s).tables := by
  cases c with
  | reset a rate => exact absurd rfl (hreset a rate)
  | freezeLimitExpiry z =>
    obtain rfl := Host.Outcome.next.inj hexec
    split_ifs
    · exact .inr (.inl ⟨z, rfl⟩)
    · exact .inl rfl
  | thaw =>
    obtain rfl := Host.Outcome.next.inj hexec
    rcases tables_takeCommand decideThaw s with hsame | ⟨b, htaken⟩
    · exact .inl hsame
    · rw [htaken, decideThaw]
      split
      · exact .inl rfl
      · rename_i z _
        split_ifs
        · exact .inr (.inl ⟨z, rfl⟩)
        · exact .inl rfl
  | clearTable =>
    obtain rfl := Host.Outcome.next.inj hexec
    rcases tables_takeCommand decideClearTable s with hsame | ⟨b, htaken⟩
    · exact .inl hsame
    · exact .inr (.inr htaken)
  | _ => cases hc

/-- Settles O9: steady moves and creations keep every record sound, and so does a thaw. -/
theorem stepKeepsEveryRecordSound : Obligations.StepKeepsEveryRecordSound := by
  intro s t htable hdeferred hrecords hstep
  unfold step at hstep
  split at hstep
  · rename_i c rest _
    have htable' : TableSound (s.withPending rest) := TableSound.of_tables (s := s) rfl htable
    have hrecords' : RecordsSound (s.withPending rest) := RecordsSound.of_tables (s := s) rfl hrecords
    by_cases hreset : ∃ a rate, c = .reset a rate
    · obtain ⟨a, rate, rfl⟩ := hreset
      rw [exec_reset, Host.Outcome.next.injEq] at hstep
      subst hstep
      generalize hon : State.powerOn ⟨a, rate⟩ = p
      have hp : RecordsSound p := .of_none (hon ▸ record_powerOn ⟨a, rate⟩)
      exact RecordsSound.of_tables (s := p) rfl hp
    · cases hthaw : mayThaw c with
      | false =>
        obtain ⟨u, hu, hcourse⟩ := exec_course c (s.withPending rest) hthaw
        obtain rfl : u = t := Host.Outcome.next.inj (hu.symm.trans hstep)
        refine (hcourse.induct (P := fun s u => TableSound s ∧ RecordsSound s → TableSound u ∧ RecordsSound u)
          (fun _ => id) (fun h g => g ∘ h) (fun hmove h => ?_) (fun hn h => ?_) ⟨htable', hrecords'⟩).2
        · exact ⟨hmove.tableSound h.1, hmove.recordsSound h.1 h.2⟩
        · exact ⟨h.1.birth hn, h.2.birth hn⟩
      | true =>
        have hdeferred' : DeferredSound (s.withPending rest) := ⟨hdeferred.bounded, hdeferred.oncePerSlot, hdeferred.held⟩
        rcases exec_thaws_tables c _ hthaw (fun a rate hc => hreset ⟨a, rate, hc⟩) hstep with hsame | ⟨z, hthawed⟩ | hcleared
        · exact hrecords'.of_tables hsame
        · exact (hrecords'.thawZone hdeferred' z).of_tables hthawed
        · exact (RecordsSound.of_none (record_clearTable _)).of_tables hcleared
  · obtain rfl : s.ownTurn = t := Host.Outcome.next.inj hstep
    exact hrecords.of_tables (ownTurn_beside s).1

end Sys2Proof.Machine
end

section
/-! PROOF. The part right after power-on and RESET (R22, R24, R38, R70, R102, R103, R130, R149, R154, R159, R166, R185). -/

namespace Sys2Proof.Machine

theorem hostSound_powerOn (x : Straps) : HostSound (.powerOn x) where
  pointer := Nat.zero_le 8
  commands := Nat.zero_le 4
  completions := Nat.zero_le 8
  emptyPointer _ := rfl
  reserved := rfl
  stopping := rfl
  underway := nofun

theorem deviceSound_powerOn (x : Straps) : DeviceSound (.powerOn x) where
  lifetime := (by decide : 1 ≤ 50 ∧ 50 ≤ 255)
  limit := (by decide : 1 ≤ 50 ∧ 50 ≤ 255)
  address h := absurd rfl h
  joining := nofun
  offline _ := ⟨rfl, rfl⟩
  underWay := nofun
  attempt := nofun
  clock := Nat.two_pow_pos 48

theorem maintSound_powerOn (x : Straps) : MaintSound (.powerOn x) where
  position := Nat.zero_le 47
  ones := Nat.zero_le 63
  between _ := rfl

/-- Settles O5: every slot is FREE, every queue empty, and every unit as its reset leaves it. -/
theorem powerOnIsSound : Obligations.PowerOnIsSound := fun x =>
  ⟨tableSound_powerOn x, .of_free (record_powerOn x) rfl, ⟨Nat.zero_le 32, .nil, nofun⟩, .of_none (record_powerOn x),
    answersSound_powerOn x, hostSound_powerOn x, deviceSound_powerOn x, maintSound_powerOn x⟩

theorem slot_powerOn (x : Straps) (i : SlotIx) : (State.powerOn x).slot i = ⟨0, none⟩ := by
  change (Vector.replicate 512 Slot.reset)[i] = _
  rw [Fin.getElem_fin, Vector.getElem_replicate, Slot.reset]

theorem freeQueue_powerOn (x : Straps) : (State.powerOn x).freeQueue = List.finRange 512 := by
  simp only [State.powerOn]

/-- Settles O4: RESET is power-on, unit by unit. -/
theorem resetRestoresThePowerOnValues : Obligations.ResetRestoresThePowerOnValues := by
  intro a rate s
  rw [exec_reset]
  generalize hon : State.powerOn ⟨a, rate⟩ = p
  have hslot : ∀ i, p.slot i = ⟨0, none⟩ := hon ▸ slot_powerOn ⟨a, rate⟩
  have hqueue : p.freeQueue = List.finRange 512 := hon ▸ freeQueue_powerOn ⟨a, rate⟩
  have hzone : ∀ z, p.zone z = Zone.reset := hon ▸ zone_powerOn ⟨a, rate⟩
  have hport : p.port = .reset ⟨a, rate⟩ := hon ▸ rfl
  have hstate : p.port.state = .offline := hport ▸ rfl
  have hhost : p.host = .reset := hon ▸ rfl
  have hmaint : p.maint = .reset := hon ▸ rfl
  have hstaging : p.host.staging.toList = List.replicate 8 0 := by rw [hhost]; decide
  have hstatus : p.intStatus = 0 := by rw [State.intStatus, hhost]; decide
  have hint : p.intAsserted = false := by rw [State.intAsserted, hstatus, hhost]; decide
  have hword : p.statusWord = 0 := by rw [State.statusWord, hmaint, hhost, hstate]; decide
  have hmrdy : p.mrdyHigh = true := by rw [State.mrdyHigh, hmaint]; decide
  refine ⟨_, rfl, hslot, hqueue, ?_, ?_, hzone, ?_, ?_, ?_, hport, ?_, ?_, ?_, ?_, hstaging, ?_, ?_, ?_, ?_, ?_, ?_,
    hstatus, ?_, hint, hword, ?_, ?_, ?_, ?_, ?_, ?_, hmrdy, rfl, rfl, rfl, rfl⟩
  all_goals subst hon; rfl

end Sys2Proof.Machine
end

section
/-! PROOF. The host commands on records (R6, R7, R14 to R17, R39, R58, R59, R61 to R65, R83, R162, R163). -/

namespace Sys2Proof.Machine

variable {s u : State} {b : Block} {i : SlotIx} {r : Record} {c : OutcomeCode} {z : ZoneIx}

/-! ## The image of a record (R7) -/

theorem Record.quality_of_forced {v : List Byte} (h : r.forcedValue = some v) :
    r.quality = .forced ∧ r.visibleValue = some v := by
  simp [Record.quality, Record.visibleValue, h]

theorem Record.visibleValue_of_unforced (h : r.forcedValue = none) : r.visibleValue = r.processValue := by
  simp [Record.visibleValue, h]

theorem Record.quality_eq_forced_iff : r.quality = .forced ↔ r.forcedValue ≠ none := by
  cases hforced : r.forcedValue with
  | some v => simp [Record.quality_of_forced hforced]
  | none =>
    simp only [Record.quality, hforced, ne_eq, not_true_eq_false, iff_false]
    split_ifs <;> simp_all

/-- Settles O48: by the lines of the table. -/
theorem visibleImageOfARecord : Obligations.VisibleImageOfARecord := by
  intro r
  refine ⟨fun v => Record.quality_of_forced, fun hnone => ⟨fun hstale => ?_, fun hlive hunset => ?_, fun hlive v hv => ?_⟩,
    Record.quality_eq_forced_iff⟩
  · exact ⟨by simp [Record.quality, hnone, hstale], Record.visibleValue_of_unforced hnone⟩
  · exact ⟨by simp [Record.quality, hnone, hlive, hunset], (Record.visibleValue_of_unforced hnone).trans hunset⟩
  · exact ⟨by simp [Record.quality, hnone, hlive, hv], (Record.visibleValue_of_unforced hnone).trans hv⟩

/-! ## Refusals of a tag (R39) -/

/-- The checks BAD_TAG, NO_ZONE and NO_RECORD come first in each command that names a record. -/
theorem exec_of_findRecord_error {k : HostKind} (hk : k ∈ [HostKind.retire, .write, .force, .unforce, .read])
    (htake : s.canTake k b) (h : s.findRecord b.tag = .error c) :
    exec k.row s = .next (completeCommand b (if k = .read then 2 else 1) c [] s) := by
  simp only [List.mem_cons, List.not_mem_nil, or_false] at hk
  rcases hk with rfl | rfl | rfl | rfl | rfl
  · exact congrArg Host.Outcome.next (takeCommand_of_decided htake (by simp only [decideRetire, h, refuse]))
  · exact congrArg Host.Outcome.next (takeCommand_of_decided htake (by simp only [decideWrite, h, refuse]))
  · exact congrArg Host.Outcome.next (takeCommand_of_decided htake (by simp only [decideForce, h, refuse]))
  · exact congrArg Host.Outcome.next (takeCommand_of_decided htake (by simp only [decideUnforce, h, refuse]))
  · exact congrArg Host.Outcome.next (takeCommand_of_decided htake (by simp only [decideRead, h, refuse]))

/-- Settles O46: the three refusals of a tag, for each command. -/
theorem recordCommandsOnAnAbsentRecord : Obligations.RecordCommandsOnAnAbsentRecord := fun _ _ _ hk htake =>
  ⟨fun ht => exec_of_findRecord_error hk htake (State.findRecord_badTag ht),
    fun ht hz => exec_of_findRecord_error hk htake (State.findRecord_noZone ht hz),
    fun ht hz hl => exec_of_findRecord_error hk htake (State.findRecord_noRecord ht hz hl)⟩

/-! ## RETIRE, WRITE, FORCE and UNFORCE of a record -/

theorem decideRetire_of_finds (h : s.Finds b.tag i r) :
    decideRetire b s = if s.frozen (zoneOf b.tag) then refuse .zoneFrozen s else done (retireSlot i s) := by
  rw [decideRetire, State.findRecord_of_finds h]

theorem decideWrite_of_finds (h : s.Finds b.tag i r) : decideWrite b s =
    if r.producer ≠ .host then refuse .notOwner s
    else if b.length ≠ r.length then refuse .badLength s
    else if s.frozen (zoneOf b.tag) then refuse .zoneFrozen s
    else done (applyStep i b.value none false s) := by
  rw [decideWrite, State.findRecord_of_finds h]

theorem decideForce_of_finds (h : s.Finds b.tag i r) : decideForce b s =
    if b.length ≠ r.length then refuse .badLength s
    else if s.frozen (zoneOf b.tag) then refuse .zoneFrozen s
    else done (forceStep i (some b.value) s) := by
  rw [decideForce, State.findRecord_of_finds h]

theorem decideUnforce_of_finds (h : s.Finds b.tag i r) : decideUnforce b s =
    if r.forcedValue = none then refuse .notForced s
    else if s.frozen (zoneOf b.tag) then refuse .zoneFrozen s
    else done (forceStep i none s) := by
  rw [decideUnforce, State.findRecord_of_finds h]

/-- What a WRITE makes of a record (R58, R62): a HOST record has no renewal. -/
theorem applyStep_write (hr : s.record i = some r) (v : List Byte) : Becomes i r
    { r with
      state := .live
      processValue := some v
      lastUpdate := s.timeBase
      graceDeadline := if r.state = .stale then none else r.graceDeadline } s (applyStep i v none false s) := by
  have hstep := recordStep_spec s hr fun r : Record => r.applied v none s.timeBase none
  exact hstep

/-- What FORCE and UNFORCE make of a record (R63, R64). -/
theorem forceStep_becomes (hr : s.record i = some r) (v : Option (List Byte)) :
    Becomes i r { r with forcedValue := v } s (forceStep i v s) := by
  have hstep := recordStep_spec s hr fun r : Record => { r with forcedValue := v }
  exact hstep

/-- Removing a forced value shows (R9, R64). -/
theorem image_unforced_ne (h : r.forcedValue ≠ none) : ({ r with forcedValue := none } : Record).image ≠ r.image := by
  intro himage
  have hquality : ({ r with forcedValue := none } : Record).quality = r.quality := congrArg Prod.fst himage
  exact Record.quality_eq_forced_iff.mp (hquality.trans (Record.quality_eq_forced_iff.mpr h)) rfl

/-- Settles O47: each command's checks in order, and the step on its record. -/
theorem recordCommandsOnARecord : Obligations.RecordCommandsOnARecord := by
  intro s b i r hfinds _
  have hr := hfinds.held
  simp only [← State.frozen_iff]
  refine ⟨fun htake => ?_, fun htake => ?_, fun htake => ?_, fun htake => ?_⟩
  · have hdecide := decideRetire_of_finds hfinds
    refine ⟨fun hfrozen => ?_, fun hfrozen => ⟨_, ?_, retireSlot_spec s hr⟩⟩
    · exact congrArg Host.Outcome.next (takeCommand_of_decided htake (by rw [hdecide, if_pos hfrozen, refuse]))
    · exact congrArg Host.Outcome.next (takeCommand_of_decided htake (by rw [hdecide, if_neg hfrozen, done]))
  · have hdecide := decideWrite_of_finds hfinds
    refine ⟨fun howner => ?_, fun howner hlength => ?_, fun howner hlength hfrozen => ?_,
      fun howner hlength hfrozen => ⟨_, ?_, applyStep_write hr _⟩⟩
    · exact congrArg Host.Outcome.next (takeCommand_of_decided htake (by rw [hdecide, if_pos howner, refuse]))
    all_goals rw [if_neg (not_not.mpr howner)] at hdecide
    · exact congrArg Host.Outcome.next (takeCommand_of_decided htake (by rw [hdecide, if_pos hlength, refuse]))
    all_goals rw [if_neg (not_not.mpr hlength)] at hdecide
    · exact congrArg Host.Outcome.next (takeCommand_of_decided htake (by rw [hdecide, if_pos hfrozen, refuse]))
    · exact congrArg Host.Outcome.next (takeCommand_of_decided htake (by rw [hdecide, if_neg hfrozen, done]; rfl))
  · have hdecide := decideForce_of_finds hfinds
    refine ⟨fun hlength => ?_, fun hlength hfrozen => ?_, fun hlength hfrozen => ⟨_, ?_, forceStep_becomes hr _⟩⟩
    · exact congrArg Host.Outcome.next (takeCommand_of_decided htake (by rw [hdecide, if_pos hlength, refuse]))
    all_goals rw [if_neg (not_not.mpr hlength)] at hdecide
    · exact congrArg Host.Outcome.next (takeCommand_of_decided htake (by rw [hdecide, if_pos hfrozen, refuse]))
    · exact congrArg Host.Outcome.next (takeCommand_of_decided htake (by rw [hdecide, if_neg hfrozen, done]; rfl))
  · have hdecide := decideUnforce_of_finds hfinds
    refine ⟨fun hnone => ?_, fun hsome hfrozen => ?_, fun hsome hfrozen => ⟨forceStep i none s, ?_, ?_⟩⟩
    · exact congrArg Host.Outcome.next (takeCommand_of_decided htake (by rw [hdecide, if_pos hnone, refuse]))
    · refine congrArg Host.Outcome.next (takeCommand_of_decided htake ?_)
      rw [hdecide, if_neg hsome, if_pos hfrozen, refuse]
    · refine congrArg Host.Outcome.next (takeCommand_of_decided htake ?_)
      rw [hdecide, if_neg hsome, if_neg hfrozen, done]
    · have hbecomes := forceStep_becomes hr none
      rwa [Becomes, if_neg (image_unforced_ne hsome)] at hbecomes

/-! ## CREATE (R14 to R16, R61, R162) -/

/-- What a host CREATE asks for. -/
def Block.newRecord (b : Block) : NewRecord :=
  ⟨b.tag, Producer.ofNumber b.producer, b.length, if b.words.length = 8 then some b.value else none, none⟩

theorem exec_create_of_refused (htake : s.canTake .create b) (h : s.createVerdict b.length b.producer b.tag = c)
    (hc : c ≠ .ok) : exec .create s = .next (completeCommand b 1 c [] s) := by
  refine congrArg Host.Outcome.next (takeCommand_of_decided htake ?_)
  rw [decideCreate, h]
  split
  · exact absurd rfl hc
  · rfl

theorem exec_create_of_passed {rest : List SlotIx} (htake : s.canTake .create b)
    (h : s.createVerdict b.length b.producer b.tag = .ok) (hqueue : s.freeQueue = i :: rest) :
    exec .create s = .next (completeCommand b 1 .ok [BitVec.ofNat 16 i.val, (s.incarnation i).setWidth 16]
      (createRecord b.newRecord s)) := by
  refine congrArg Host.Outcome.next (takeCommand_of_decided htake ?_)
  rw [decideCreate, h, hqueue]
  rfl

/-- The record that a CREATE makes: HOST has no lease (R15, R71). -/
theorem made_newRecord (b : Block) (s : State) : b.newRecord.made s =
    ⟨.live, b.tag, if b.producer = 0 then .host else .node (BitVec.ofNat 6 b.producer), b.length,
      if b.words.length = 8 then some (b.bytes.take b.length) else none, none, none, 0, s.timeBase,
      if b.producer = 0 ∨ (s.zone (zoneOf b.tag)).lease = 0 then none
        else some (s.timeBase + 10 * (s.zone (zoneOf b.tag)).lease), none, .noStep, []⟩ := by
  by_cases hproducer : b.producer = 0
  · simp [NewRecord.made, Block.newRecord, NewRecord.fields, Producer.ofNumber, hproducer, Record.renewed, Block.value]
  · simp [NewRecord.made, Block.newRecord, NewRecord.fields, Producer.ofNumber, hproducer, Record.renewed, Block.value]

/-- Settles O45: by the first check that fails, and else by what a creation does. -/
theorem createFillsTheHeadSlot : Obligations.CreateFillsTheHeadSlot := by
  intro s b htake
  refine ⟨fun hbad => ?_, fun hlength hlength' hproducer => ?_⟩
  · refine exec_create_of_refused htake (if_pos ?_) nofun
    omega
  have harg : ¬ (b.length < 1 ∨ 8 < b.length ∨ 62 < b.producer) := by omega
  have refused : ∀ {c}, s.createVerdict b.length b.producer b.tag = c → c ≠ .ok →
      exec .create s = .next (completeCommand b 1 c [] s) := fun h hc => exec_create_of_refused htake h hc
  have hverdict : s.createVerdict b.length b.producer b.tag = _ := if_neg harg
  refine ⟨fun htag => ?_, fun htag hz => ?_, fun htag hz hfound => ?_, fun htag hz habsent => ⟨fun hfrozen => ?_,
    fun hthawed hfull => ?_, fun hthawed hroom hnone => ?_, fun hthawed hroom i rest hqueue => ?_⟩⟩
  · exact refused (hverdict.trans (if_pos htag)) nofun
  all_goals rw [if_neg htag] at hverdict
  · exact refused (hverdict.trans (if_pos hz)) nofun
  all_goals rw [if_neg (by simp [hz])] at hverdict
  · exact refused (hverdict.trans (if_pos hfound)) nofun
  all_goals rw [if_neg (by simp [habsent])] at hverdict
  · exact refused (hverdict.trans (if_pos ((State.frozen_iff _).mpr hfrozen))) nofun
  all_goals rw [if_neg (by simp [State.frozen_eq_false hthawed])] at hverdict
  · exact refused (hverdict.trans (if_pos hfull)) nofun
  all_goals rw [if_neg (Nat.not_le_of_lt hroom)] at hverdict
  · exact refused (hverdict.trans (if_pos hnone)) nofun
  · rw [if_neg (by simp [hqueue])] at hverdict
    exact ⟨_, exec_create_of_passed htake hverdict hqueue, made_newRecord b s ▸ createRecord_spec s b.newRecord hqueue⟩

/-! ## READ (R83, R163) -/

theorem exec_read_of_finds (htake : s.canTake .read b) (h : s.Finds b.tag i r) :
    exec .read s = .next (completeCommand b 2 .ok (r.readWords (s.incarnation i) s.timeBase) s) := by
  refine congrArg Host.Outcome.next (takeCommand_of_decided htake ?_)
  rw [decideRead, State.findRecord_of_finds h]

/-- The age, up to what a word holds (R6). -/
theorem Record.age_toNat (r : Record) (now : Nat) : (r.age now).toNat = min 65535 ((now - r.lastUpdate) / 10) := by
  rw [Record.age, BitVec.toNat_ofNat]
  omega

/-- The remaining lease, rounded up (R83). -/
theorem Record.leaseRemaining_toNat {d now : Nat} (h : r.leaseDeadline = some d) (hd : d ≤ now + 60000) :
    10 * (r.leaseRemaining now).toNat < (d - now) + 10 ∧ d - now ≤ 10 * (r.leaseRemaining now).toNat := by
  have hleft : (r.leaseRemaining now).toNat = (d - now + 9) / 10 := by
    rw [Record.leaseRemaining, h]
    simp only [remainingUnits, BitVec.toNat_ofNat]
    omega
  omega

/-- The fields of the first word of READ, by their bits (R163). -/
theorem readFlags_fields (a : BitVec 2) (q : BitVec 3) (p : BitVec 2) (v f l : Bool) (n : BitVec 3) :
    let w : Word := a ++ q ++ p ++ BitVec.ofBool v ++ BitVec.ofBool f ++ BitVec.ofBool l ++ n ++ 0#3
    w.extractLsb' 14 2 = a ∧ w.extractLsb' 11 3 = q ∧ w.extractLsb' 9 2 = p ∧ w.getLsbD 8 = v ∧ w.getLsbD 7 = f ∧
      w.getLsbD 6 = l ∧ w.extractLsb' 3 3 = n ∧ w.extractLsb' 0 3 = 0 := by
  refine ⟨?_, ?_, ?_, ?_, ?_, ?_, ?_, ?_⟩
  · iterate 6 rw [BitVec.extractLsb'_append_eq_of_le (by decide)]
    exact BitVec.extractLsb'_append_eq_left
  · iterate 6 rw [BitVec.extractLsb'_append_eq_of_le (by decide)]
    exact BitVec.extractLsb'_append_eq_right
  · iterate 5 rw [BitVec.extractLsb'_append_eq_of_le (by decide)]
    exact BitVec.extractLsb'_append_eq_right
  · simp only [BitVec.getLsbD_append]
    simp
  · simp only [BitVec.getLsbD_append]
    simp
  · simp only [BitVec.getLsbD_append]
    simp
  · rw [BitVec.extractLsb'_append_eq_of_le (by decide)]
    exact BitVec.extractLsb'_append_eq_right
  · exact BitVec.extractLsb'_append_eq_right

/-- A record shows one of four qualities (R7). -/
theorem Record.qualityNumber_eq (r : Record) : r.qualityNumber =
    match r.quality with | .good => 0 | .unset => 1 | .stale => 2 | _ => 3 := by
  unfold Record.qualityNumber Record.quality
  split_ifs <;> rfl

/-- Settles O49: the words of READ are those of the record found. -/
theorem readReportsTheRecord : Obligations.ReadReportsTheRecord := by
  refine ⟨fun v k => ⟨rfl, rfl⟩, fun s b i r htake hfinds => ?_⟩
  obtain ⟨hstate, hquality, hpending, hvalue, hforced, hsequence, hcount, hlow⟩ :=
    readFlags_fields (BitVec.ofNat 2 r.state.number) r.qualityNumber (BitVec.ofNat 2 r.pendingAge.number)
      r.processValue.isSome r.forcedValue.isSome r.lastSequence.isSome (BitVec.ofNat 3 r.subscribers.length)
  refine ⟨r.readFlags, r.age s.timeBase, r.leaseRemaining s.timeBase, exec_read_of_finds htake hfinds, hstate.trans ?_,
    hquality.trans r.qualityNumber_eq, hpending.trans ?_, hvalue, hforced, hsequence, hcount, hlow, r.age_toNat _,
    fun hnone => ?_,
    fun d => Record.leaseRemaining_toNat⟩
  · cases r.state <;> rfl
  · cases r.pendingAge <;> rfl
  · rw [Record.leaseRemaining, hnone]

end Sys2Proof.Machine
end

section
/-! PROOF. The host commands on zones and on the whole table (R19, R20, R38, R47, R48, R50, R85 to R87, R102, R148). -/

namespace Sys2Proof.Machine

variable {s u : State} {b : Block} {c : OutcomeCode} {z : ZoneIx} {x : Zone}

/-! ## SET_ZONE (R47, R48) -/

theorem ZoneStatus.ofByte_zero : ZoneStatus.ofByte 0 = some .disabled := rfl

theorem ZoneStatus.ofByte_one : ZoneStatus.ofByte 1 = some .active := rfl

theorem byte_cases {w : Byte} (h : w.toNat ≤ 1) : w = 0 ∨ w = 1 := by
  rcases Nat.le_one_iff_eq_zero_or_eq_one.mp h with h | h
  · exact .inl (BitVec.eq_of_toNat_eq h)
  · exact .inr (BitVec.eq_of_toNat_eq h)

/-- The status of an operand byte in its range. -/
theorem ZoneStatus.ofByte_of_le {w : Byte} (h : w.toNat ≤ 1) :
    ZoneStatus.ofByte w = some (if w = 1 then .active else .disabled) := by
  rcases byte_cases h with rfl | rfl <;> rfl

theorem Admission.ofByte_of_le {w : Byte} (h : w.toNat ≤ 1) :
    Admission.ofByte w = some (if w = 1 then .opened else .closed) := by
  rcases byte_cases h with rfl | rfl <;> rfl

theorem ZoneStatus.ofByte_of_large {w : Byte} (h : 1 < w.toNat) : ZoneStatus.ofByte w = none := by
  unfold ZoneStatus.ofByte
  split
  · omega
  · omega
  · rfl

theorem Admission.ofByte_of_large {w : Byte} (h : 1 < w.toNat) : Admission.ofByte w = none := by
  unfold Admission.ofByte
  split
  · omega
  · omega
  · rfl

/-- The entry that a SET_ZONE asks for. -/
def Block.zoneEntry (b : Block) (x : Zone) : Zone :=
  x.withSettings (if highByte (b.word 2) = 1 then .active else .disabled)
    (if lowByte (b.word 2) = 1 then .opened else .closed) (b.word 3).toNat (b.word 4).toNat (b.word 5).toNat

theorem Block.zoneEntry_active_iff : (b.zoneEntry x).status = .active ↔ highByte (b.word 2) = 1 := by
  change (if _ then _ else _) = _ ↔ _
  by_cases h : highByte (b.word 2) = 1
  · rw [if_pos h]; exact ⟨fun _ => h, fun _ => rfl⟩
  · rw [if_neg h]; exact ⟨nofun, fun h' => absurd h' h⟩

theorem Block.zoneEntry_disabled_iff : (b.zoneEntry x).status = .disabled ↔ highByte (b.word 2) ≠ 1 := by
  rw [Ne, ← Block.zoneEntry_active_iff (x := x)]
  cases (b.zoneEntry x).status <;> simp

/-- The arguments of a SET_ZONE are in range (R47). -/
structure Block.ZoneRange (b : Block) (z : ZoneIx) : Prop where
  zone : (b.word 1).toNat = z.val
  status : (highByte (b.word 2)).toNat ≤ 1
  admission : (lowByte (b.word 2)).toNat ≤ 1
  settings : (b.word 3).toNat ≤ 512 ∧ (b.word 4).toNat ≤ 6000 ∧ (b.word 5).toNat ≤ 6000

theorem decideSetZone_of_range (h : b.ZoneRange z) : decideSetZone b s =
    match s.setZoneVerdict z (b.zoneEntry (s.zone z)) with
    | .ok => done (s.setZone z (b.zoneEntry (s.zone z)))
    | c => refuse c s := by
  obtain ⟨hquota, hlease, hgrace⟩ := h.settings
  simp only [decideSetZone, zoneOfWord_of_lt h.zone, ZoneStatus.ofByte_of_le h.status,
    Admission.ofByte_of_le h.admission]
  rw [if_neg (by omega)]
  rfl

theorem decideSetZone_of_out (h : 15 < (b.word 1).toNat ∨ 1 < (highByte (b.word 2)).toNat ∨
    1 < (lowByte (b.word 2)).toNat ∨ 512 < (b.word 3).toNat ∨ 6000 < (b.word 4).toNat ∨ 6000 < (b.word 5).toNat) :
    decideSetZone b s = refuse .badArgument s := by
  unfold decideSetZone
  dsimp only
  split
  · rename_i z st ad hz hst had
    rw [if_pos]
    rcases h with h | h | h | h
    · rw [zoneOfWord_of_large h] at hz; cases hz
    · rw [ZoneStatus.ofByte_of_large h] at hst; cases hst
    · rw [Admission.ofByte_of_large h] at had; cases had
    · exact h
  · rfl

theorem exec_setZone_of_verdict (htake : s.canTake .setZone b) (h : b.ZoneRange z)
    (hc : s.setZoneVerdict z (b.zoneEntry (s.zone z)) = c) (hne : c ≠ .ok) :
    exec .setZone s = .next (completeCommand b 1 c [] s) := by
  refine congrArg Host.Outcome.next (takeCommand_of_decided htake ?_)
  rw [decideSetZone_of_range h, hc]
  split
  · exact absurd rfl hne
  · rfl

/-- The sum of the quotas once one entry is replaced (R47). -/
theorem quotaSum_setZone (z : ZoneIx) (x : Zone) (s : State) : (s.setZone z x).quotaSum =
    ((List.finRange 16).map fun y =>
      if y = z then (if x.status = .active then x.quota else 0)
      else if (s.zone y).status = .active then (s.zone y).quota else 0).sum := by
  rw [State.quotaSum_eq]
  congr 1
  refine List.map_congr_left fun y _ => ?_
  rw [State.zone_setZone]
  by_cases hy : y = z
  · rw [if_pos hy, if_pos hy]
  · rw [if_neg hy, if_neg hy]

/-- Settles O51: by the first check that fails. -/
theorem setZoneChecksAndWrites : Obligations.SetZoneChecksAndWrites := by
  intro s b htake
  refine ⟨fun hout => ?_, fun z hz hst had hq hl hg => ?_⟩
  · exact congrArg Host.Outcome.next (takeCommand_of_decided htake (decideSetZone_of_out hout))
  have hrange : b.ZoneRange z := ⟨hz, hst, had, hq, hl, hg⟩
  have hsum := quotaSum_setZone z (b.zoneEntry (s.zone z)) s
  simp only [Block.zoneEntry_active_iff] at hsum
  have hused : (highByte (b.word 2) = 1 ∨ (s.zone z).count = 0) →
      ¬ ((b.zoneEntry (s.zone z)).status = .disabled ∧ 0 < (b.zoneEntry (s.zone z)).count) := by
    rintro (h | h) ⟨hd, hc⟩
    · exact Block.zoneEntry_disabled_iff.mp hd h
    · exact Nat.ne_of_gt hc h
  refine ⟨fun hd hc => ?_, fun hok hlow => ?_, fun hok hlow hover => ?_, fun hok hlow hover hfrozen => ?_,
    fun hok hlow hover hthawed => ?_⟩
  · have hne : highByte (b.word 2) ≠ 1 := fun h => by cases h.symm.trans hd
    exact exec_setZone_of_verdict htake hrange (if_pos ⟨Block.zoneEntry_disabled_iff.mpr hne, hc⟩) nofun
  all_goals have hverdict : s.setZoneVerdict z (b.zoneEntry (s.zone z)) = _ := if_neg (hused hok)
  · exact exec_setZone_of_verdict htake hrange (hverdict.trans (if_pos hlow)) nofun
  all_goals replace hverdict := hverdict.trans (if_neg (Nat.not_lt_of_le hlow))
  · exact exec_setZone_of_verdict htake hrange (hverdict.trans (if_pos (lt_of_lt_of_eq hover hsum.symm))) nofun
  all_goals replace hverdict := hverdict.trans (if_neg (Nat.not_lt_of_le (le_of_eq_of_le hsum hover)))
  · exact exec_setZone_of_verdict htake hrange (hverdict.trans (if_pos ((State.frozen_iff z).mpr hfrozen))) nofun
  · rw [if_neg (by simp [State.frozen_eq_false hthawed])] at hverdict
    refine congrArg Host.Outcome.next (takeCommand_of_decided htake ?_)
    rw [decideSetZone_of_range hrange, hverdict]
    rfl

/-! ## ZONE_STATUS, FREEZE and THAW (R50, R85 to R87) -/

theorem zoneStatusWord_fields (n : Byte) (f a t : Bool) (z : BitVec 4) :
    let w : Word := n ++ 0#1 ++ BitVec.ofBool f ++ BitVec.ofBool a ++ BitVec.ofBool t ++ z
    w.extractLsb' 0 4 = z ∧ w.getLsbD 4 = t ∧ w.getLsbD 5 = a ∧ w.getLsbD 6 = f ∧ w.getLsbD 7 = false ∧
      w.extractLsb' 8 8 = n := by
  refine ⟨BitVec.extractLsb'_append_eq_right, ?_, ?_, ?_, ?_, ?_⟩
  · simp only [BitVec.getLsbD_append]
    simp
  · simp only [BitVec.getLsbD_append]
    simp
  · simp only [BitVec.getLsbD_append]
    simp
  · simp only [BitVec.getLsbD_append]
    simp
  · iterate 4 rw [BitVec.extractLsb'_append_eq_of_le (by decide)]
    exact BitVec.extractLsb'_append_eq_left

/-- The remaining freeze time, rounded up (R50). -/
theorem Zone.freezeRemaining_toNat {d now : Nat} (h : x.freeze = some d) (hd : d ≤ now + 2550) :
    10 * (BitVec.ofNat 8 (x.freezeRemaining now)).toNat < (d - now) + 10 ∧
      d - now ≤ 10 * (BitVec.ofNat 8 (x.freezeRemaining now)).toNat := by
  have hleft : (BitVec.ofNat 8 (x.freezeRemaining now)).toNat = (d - now + 9) / 10 := by
    rw [Zone.freezeRemaining, h]
    simp only [remainingUnits, BitVec.toNat_ofNat]
    omega
  omega

theorem exec_zoneStatus_of_zone (htake : s.canTake .zoneStatus b) (hz : (b.word 1).toNat = z.val) :
    exec .zoneStatus s = .next (completeCommand b 1 .ok ((s.zone z).statusWords z s.timeBase) s) := by
  refine congrArg Host.Outcome.next (takeCommand_of_decided htake ?_)
  rw [decideZoneStatus, zoneOfWord_of_lt hz]

/-- Settles O52: by the zone that the operand names, and its entry. -/
theorem zoneStatusAndFreeze : Obligations.ZoneStatusAndFreeze := by
  intro s b
  refine ⟨fun hlarge => ?_, fun z hz => ⟨fun htake => ?_, fun htake => ?_, fun htake hthawed => ?_⟩⟩
  · have hnone := zoneOfWord_of_large hlarge
    refine ⟨fun htake => ?_, fun htake => ?_, fun htake => ?_⟩
    · exact congrArg Host.Outcome.next (takeCommand_of_decided htake (by rw [decideZoneStatus, hnone, refuse]))
    · exact congrArg Host.Outcome.next (takeCommand_of_decided htake (by rw [decideFreeze, hnone, refuse]))
    · exact congrArg Host.Outcome.next (takeCommand_of_decided htake (by rw [decideThaw, hnone, refuse]))
  · obtain ⟨hzone, hstatus, hadmission, hfrozen, hzero, hleft⟩ := zoneStatusWord_fields
      (BitVec.ofNat 8 ((s.zone z).freezeRemaining s.timeBase)) (s.zone z).freeze.isSome
      (decide ((s.zone z).admission = .opened)) (decide ((s.zone z).status = .active)) (BitVec.ofNat 4 z.val)
    refine ⟨_, exec_zoneStatus_of_zone htake hz, ?_, ?_, ?_, hfrozen, hzero, fun hnone => hleft.trans ?_, fun d hd hle => ?_⟩
    · rw [hzone, BitVec.toNat_ofNat]
      exact Nat.mod_eq_of_lt z.isLt
    · rw [hstatus, decide_eq_true_iff]
    · rw [hadmission, decide_eq_true_iff]
    · rw [Zone.freezeRemaining, hnone]
      rfl
    · rw [hleft]
      exact Zone.freezeRemaining_toNat hd hle
  · have hzone := zoneOfWord_of_lt hz
    refine ⟨fun hdisabled => ?_, fun hactive hfrozen => ?_, fun hactive hthawed => ?_⟩
    · refine congrArg Host.Outcome.next (takeCommand_of_decided htake ?_)
      simp only [decideFreeze, hzone, if_pos hdisabled, refuse]
    · refine congrArg Host.Outcome.next (takeCommand_of_decided htake ?_)
      simp [decideFreeze, hzone, hactive, (State.frozen_iff z).mpr hfrozen, refuse]
    · refine congrArg Host.Outcome.next (takeCommand_of_decided htake ?_)
      simp [decideFreeze, hzone, hactive, State.frozen_eq_false hthawed, done]
  · refine congrArg Host.Outcome.next (takeCommand_of_decided htake ?_)
    simp [decideThaw, zoneOfWord_of_lt hz, State.frozen_eq_false hthawed, refuse]

/-! ## CLEAR_TABLE (R19, R20, R38, R102, R148) -/

/-- Settles O54: slot by slot, zone by zone. -/
theorem clearTableEmptiesTheImage : Obligations.ClearTableEmptiesTheImage := by
  intro s b htake
  refine ⟨clearTable s, congrArg Host.Outcome.next (takeCommand_of_decided htake rfl), fun i => ?_, fun z => ?_, ?_⟩
  · rw [slot_clearTable, Slot.cleared]
    cases hr : s.record i with
    | none => rw [show (s.slot i).record = none from hr]; exact congrArg (Slot.mk _) hr
    | some r => rw [show (s.slot i).record = some r from hr]; rfl
  · rw [zone_clearTable, Zone.cleared]
    cases hcount : (s.zone z).count <;> simp
  · have hkept : (fun a : Answer => !a.isNotify || a.started) = fun a => !(a.isNotify && !a.started) := by
      funext a
      cases a.isNotify <;> cases a.started <;> rfl
    simp only [hkept, clearTable, State.withAnswers, State.withDeferred, State.withPoolFree, State.withZones,
      State.withDirectory, State.withFreeQueue, State.withSlots, Config.poolCapacity]

end Sys2Proof.Machine
end

section
/-! PROOF. Requests from the point bus, and the answers that they ask for (R15 to R17, R54, R57, R60, R105 to R107, R109,
R110, R138). -/

namespace Sys2Proof.Machine

variable {s u : State} {n src : Addr} {t : Tag} {q fl : Byte} {v : List Byte} {i : SlotIx} {r : Record} {ref : Ref}
  {c : OutcomeCode} {m : Nat}

/-! ## Requests for answers (R109, R110, R138) -/

theorem not_noRoom_iff : ¬ s.noRoom ↔
    notifyCount s.answers < 16 ∧ s.answers.length < 24 ∧ s.port.state ≠ .offline := by
  simp only [State.noRoom, not_or, Nat.not_le, Ne]

theorem notifyRequest_of_waits (h : s.waits ref n = true) (t : Tag) : notifyRequest t ref n s = s := by
  rcases notifyRequest_cases t ref n s with ⟨-, heq⟩ | ⟨hnot, -⟩ | ⟨hnot, -⟩
  · exact heq
  all_goals rw [h] at hnot; cases hnot

theorem notifyRequest_of_room (h : s.waits ref n = false) (hroom : ¬ s.noRoom) (t : Tag) :
    notifyRequest t ref n s = s.withAnswers (s.answers ++ [freshNotify ref t s.timeBase n]) := by
  rcases notifyRequest_cases t ref n s with ⟨hwaits, -⟩ | ⟨-, -, heq⟩ | ⟨-, hfull, -⟩
  · rw [h] at hwaits; cases hwaits
  · exact heq
  · exact absurd hfull hroom

theorem notifyRequest_of_noRoom (h : s.waits ref n = false) (hfull : s.noRoom) (t : Tag) :
    notifyRequest t ref n s = (setMarker ref n true s).count .notifyMissed := by
  rcases notifyRequest_cases t ref n s with ⟨hwaits, -⟩ | ⟨-, hroom, -⟩ | ⟨-, -, heq⟩
  · rw [h] at hwaits; cases hwaits
  · exact absurd hfull hroom
  · exact heq

/-- Settles O19: a request coalesces, joins or is refused; a CONFIRM joins or is dropped. -/
theorem answersAreAdmittedByKind : Obligations.AnswersAreAdmittedByKind := by
  refine ⟨fun t ref n s => ⟨fun hwaits => notifyRequest_of_waits hwaits t, fun hnew hcount hlength hport => ?_,
    fun hnew hfull => ?_⟩, fun n t q c s => ⟨fun hroom => if_pos hroom, fun hfull => if_neg (Nat.not_lt_of_le hfull)⟩⟩
  · exact notifyRequest_of_room hnew (not_noRoom_iff.mpr ⟨hcount, hlength, hport⟩) t
  · refine ⟨_, notifyRequest_of_noRoom hnew hfull t, ?_, fun i => ?_⟩
    · obtain ⟨x, hframe⟩ := setMarker_frame ref n true s
      rw [hframe]
      rfl
    · have hmark : (fun x : Subscription => if x.node = n then (⟨n, true⟩ : Subscription) else x) =
          fun x => if x.node = n then ⟨x.node, true⟩ else x := by
        funext x
        split_ifs with hx
        · rw [hx]
        · rfl
      rw [State.slot_congr (State.count_slots ..), setMarker_slot, hmark]

/-! ## PUBLISH of an unknown tag (R15, R57) -/

/-- Settles O28: the checks pass, the CONFIRM is handed over, and the record is made. -/
theorem publishCreatesARecord : Obligations.PublishCreatesARecord := by
  intro s dst src t q fl v i rest hhears hdst hne hlen ht hz ha hf hroom hl hqueue
  have hverdict : (s.heard v.length).publishVerdict src t q v = .create := by
    rw [publishVerdict_heard, publishVerdict_of_absent ht hz hl, creationVerdict_of_opened ha hf,
      if_neg (Nat.not_le_of_lt hroom), if_neg (by simp [hqueue]), if_neg (by simpa using hne)]
  refine ⟨_, (exec_publish_of_hears hhears hdst t q fl v hlen).trans
    (congrArg _ (doPublish_of_passed rfl hverdict)), ?_⟩
  have hfree : (State.answered src t q fl .created (s.heard v.length)).freeQueue = i :: rest := by
    obtain ⟨a, k, hframe⟩ := answered_frame src t q fl .created (s.heard v.length)
    rw [hframe]
    exact hqueue
  have hmade := createRecord_spec _ ⟨t, .node src, v.length, some v, some q⟩ hfree
  rw [answered_timeBase, State.zone_congr answered_zones] at hmade
  exact hmade

/-! ## WITHDRAW (R17, R60) -/

theorem exec_withdraw_of_error {dst : Addr} (hhears : s.Hears dst src) (h : s.withdrawVerdict src t = .error c)
    (hc : c.isRefusal = true) : exec (.withdraw dst src t q) s = .next (confirm src t q c ((s.heard 0).count .refused)) := by
  have hverdict : (s.heard 0).withdrawVerdict src t = .error c := h
  rw [exec_withdraw_of_hears hhears, doWithdraw, hverdict]
  simp only [countRefusal, hc, if_true]

theorem withdrawVerdict_of_findRecord (h : s.findRecord t = .error c) : s.withdrawVerdict n t = .error c := by
  rw [State.withdrawVerdict, h]

theorem withdrawVerdict_of_finds (h : s.Finds t i r) : s.withdrawVerdict n t =
    if r.producer ≠ .node n then .error .notOwner
    else if s.frozen (zoneOf t) then .error .zoneFrozen
    else .ok i := by
  rw [State.withdrawVerdict, State.findRecord_of_finds h]

/-- Settles O31: by the first check that fails, and else by the retirement behind the CONFIRM. -/
theorem withdrawRetiresOrIsRefused : Obligations.WithdrawRetiresOrIsRefused := by
  intro s dst src t q hhears
  refine ⟨fun ht => ?_, fun ht hz => ?_, fun ht hz hl => ?_, fun i r hfinds => ?_⟩
  · exact exec_withdraw_of_error hhears (withdrawVerdict_of_findRecord (State.findRecord_badTag ht)) rfl
  · exact exec_withdraw_of_error hhears (withdrawVerdict_of_findRecord (State.findRecord_noZone ht hz)) rfl
  · exact exec_withdraw_of_error hhears (withdrawVerdict_of_findRecord (State.findRecord_noRecord ht hz hl)) rfl
  have hverdict := withdrawVerdict_of_finds (n := src) hfinds
  refine ⟨fun hp => ?_, fun hp hf => ?_, fun hp hf => ⟨_, ?_, retireSlot_spec _ ?_⟩⟩
  · exact exec_withdraw_of_error hhears (hverdict.trans (if_pos hp)) rfl
  all_goals rw [if_neg (not_not_intro hp)] at hverdict
  · exact exec_withdraw_of_error hhears (hverdict.trans (if_pos ((State.frozen_iff _).mpr hf))) rfl
  · rw [State.frozen_eq_false hf] at hverdict
    have hheard : (s.heard 0).withdrawVerdict src t = .ok i := hverdict
    rw [exec_withdraw_of_hears hhears, doWithdraw, hheard]
  · exact (record_of_tables (tables_confirm ..) i).trans hfinds.held

/-! ## SUBSCRIBE and UNSUBSCRIBE (R105 to R107) -/

theorem exec_subscribe_of_refuse {dst : Addr} (hhears : s.Hears dst src) (h : s.subscribeVerdict src t = .refuse c)
    (hc : c.isRefusal = true) : exec (.subscribe dst src t q) s = .next (confirm src t q c ((s.heard 0).count .refused)) := by
  have hverdict : (s.heard 0).subscribeVerdict src t = .refuse c := h
  rw [exec_subscribe_of_hears hhears, doSubscribe, hverdict]
  simp only [countRefusal, hc, if_true]

theorem exec_unsubscribe_of_error {dst : Addr} (hhears : s.Hears dst src) (h : s.findRecord t = .error c)
    (hc : c.isRefusal = true) :
    exec (.unsubscribe dst src t q) s = .next (confirm src t q c ((s.heard 0).count .refused)) := by
  have hfound : (s.heard 0).findRecord t = .error c := h
  rw [exec_unsubscribe_of_hears hhears, doUnsubscribe, hfound]
  simp only [countRefusal, hc, if_true]

theorem exec_unsubscribe_of_finds {dst : Addr} (hhears : s.Hears dst src) (h : s.Finds t i r) :
    exec (.unsubscribe dst src t q) s = .next (confirm src t q .ok (returnSubscription i src (s.heard 0))) := by
  have hfound : (s.heard 0).findRecord t = .ok (i, r) := (State.findRecord_of_finds h : s.findRecord t = .ok (i, r))
  rw [exec_unsubscribe_of_hears hhears, doUnsubscribe, hfound]

theorem subscribeVerdict_of_findRecord (h : s.findRecord t = .error c) : s.subscribeVerdict n t = .refuse c := by
  rw [State.subscribeVerdict, h]

theorem subscribeVerdict_of_finds (h : s.Finds t i r) : s.subscribeVerdict n t =
    if r.subscribers.any (fun x => x.node = n) then .already
    else if 4 ≤ r.subscribers.length then .refuse .listFull
    else if s.poolFree = 0 then .refuse .poolEmpty
    else .append i := by
  rw [State.subscribeVerdict, State.findRecord_of_finds h]

theorem any_node_iff {l : List Subscription} : l.any (fun x => x.node = n) = true ↔ n ∈ l.map (·.node) := by
  simp only [List.any_eq_true, decide_eq_true_eq, List.mem_map]

/-- The first entry of the node leaves a list (R107). -/
theorem eraseP_node {before after : List Subscription} {x : Subscription} (hx : x.node = n)
    (hbefore : n ∉ before.map (·.node)) :
    (before ++ x :: after).eraseP (fun x => x.node = n) = before ++ after := by
  rw [List.eraseP_append_right _ fun y hy => ?_, List.eraseP_cons_of_pos (by simpa using hx)]
  have hne : y.node ≠ n := fun h => hbefore (h ▸ List.mem_map_of_mem hy)
  simpa using hne

/-- Settles O32: by the first check that fails, and else by the entry that joins or leaves the list. -/
theorem subscribeAndUnsubscribe : Obligations.SubscribeAndUnsubscribe := by
  intro s dst src t q hhears
  refine ⟨fun ht => ?_, fun ht hz => ?_, fun ht hz hl => ?_, fun i r hfinds => ?_⟩
  · have hbad := State.findRecord_badTag (s := s) ht
    exact ⟨exec_subscribe_of_refuse hhears (subscribeVerdict_of_findRecord hbad) rfl,
      exec_unsubscribe_of_error hhears hbad rfl⟩
  · have hbad := State.findRecord_noZone (s := s) ht hz
    exact ⟨exec_subscribe_of_refuse hhears (subscribeVerdict_of_findRecord hbad) rfl,
      exec_unsubscribe_of_error hhears hbad rfl⟩
  · have hbad := State.findRecord_noRecord (s := s) ht hz hl
    exact ⟨exec_subscribe_of_refuse hhears (subscribeVerdict_of_findRecord hbad) rfl,
      exec_unsubscribe_of_error hhears hbad rfl⟩
  have hverdict := subscribeVerdict_of_finds (n := src) hfinds
  have hheard : (s.heard 0).subscribeVerdict src t = s.subscribeVerdict src t := rfl
  have hrecord : (s.heard 0).record i = some r := hfinds.held
  refine ⟨fun hin => ?_, fun hout hfull => ?_, fun hout hroom hpool => ?_, fun hout hroom hpool => ?_, fun hout => ?_,
    fun before x after hlist hx hbefore => ?_⟩
  · rw [if_pos (any_node_iff.mpr hin)] at hverdict
    rw [exec_subscribe_of_hears hhears, doSubscribe, hheard, hverdict]
  · rw [if_neg (any_node_iff.not.mpr hout)] at hverdict
    exact exec_subscribe_of_refuse hhears (hverdict.trans (if_pos hfull)) rfl
  · rw [if_neg (any_node_iff.not.mpr hout), if_neg (Nat.not_le_of_lt hroom)] at hverdict
    exact exec_subscribe_of_refuse hhears (hverdict.trans (if_pos hpool)) rfl
  · rw [if_neg (any_node_iff.not.mpr hout), if_neg (Nat.not_le_of_lt hroom), if_neg (Nat.ne_of_gt hpool)] at hverdict
    rw [exec_subscribe_of_hears hhears, doSubscribe, hheard, hverdict]
    dsimp only
    rw [addSubscription_of_record hrecord]
    rfl
  · rw [exec_unsubscribe_of_finds hhears hfinds, returnSubscription, hrecord]
    dsimp only
    rw [if_neg (any_node_iff.not.mpr hout)]
  · rw [exec_unsubscribe_of_finds hhears hfinds, returnSubscription, hrecord]
    have hin : src ∈ r.subscribers.map (·.node) := hx ▸ List.mem_map_of_mem (hlist ▸ List.mem_append_right _ List.mem_cons_self)
    dsimp only
    rw [if_pos (any_node_iff.mpr hin), hlist, eraseP_node hx hbefore]
    rfl

end Sys2Proof.Machine
end

section
/-! PROOF. The answer queue's attempts: what an entry is bound to, and how an attempt starts (R8, R111, R112, R117, R120,
R140 to R142). -/

namespace Sys2Proof.Machine

variable {s u : State} {a : Answer} {r : Record} {ref : Ref} {before after : List Answer} {i : SlotIx}

/-! ## Binding (R8, R120, R142) -/

theorem flagsByte_getLsbD (more last notFound missed : Bool) (k : Nat) (hk : k < 8) :
    (flagsByte more last notFound missed).getLsbD k =
      ((k == 1 && more) || (k == 2 && last) || (k == 3 && notFound) || (k == 4 && missed)) := by
  revert more last notFound missed
  interval_cases k <;> decide

theorem bindRecord_of_live (hr : s.record ref.slot = some r) (hinc : s.incarnation ref.slot = ref.incarnation) :
    s.bindRecord ref = (r.quality, lowByte r.revision, r.visibleValue.getD []) := by
  rw [State.bindRecord, hr]
  exact if_pos hinc

theorem bindRecord_of_gone (h : s.record ref.slot = none ∨ s.incarnation ref.slot ≠ ref.incarnation) :
    s.bindRecord ref = (.gone, 0, []) := by
  rw [State.bindRecord]
  cases hr : s.record ref.slot with
  | none => rfl
  | some r =>
    rcases h with h | h
    · rw [hr] at h; cases h
    · exact if_neg h

/-- Settles O37: by the body of the entry, and whether its record is still there. -/
theorem answersBindToTheImage : Obligations.AnswersBindToTheImage := by
  refine ⟨flagsByte_getLsbD, fun s a => ⟨fun ref more last nf hbody => ?_, fun more last nf hbody => ?_,
    fun ref m hbody => ?_, fun q c hbody => ?_⟩⟩
  · refine ⟨fun r hr hinc => ?_, fun hgone => ?_⟩
    · simp only [State.bindAnswer, hbody, bindRecord_of_live hr hinc, lowByte]
    · simp only [State.bindAnswer, hbody, bindRecord_of_gone hgone, Quality.code]
  · simp only [State.bindAnswer, hbody, Quality.code]
  · refine ⟨fun r hr hinc => ?_, fun hgone => ?_⟩
    · simp only [State.bindAnswer, hbody, bindRecord_of_live hr hinc, lowByte]
    · simp only [State.bindAnswer, hbody, bindRecord_of_gone hgone, Quality.code]
  · simp only [State.bindAnswer, hbody]

/-! ## The candidate (R140) -/

theorem classA_eq (a : Answer) : a.classA = !a.isNotify := rfl

/-- The place of the candidate is behind the entries before it. -/
theorem candidatePlace_eq (h : isCandidate a before after) : candidatePlace (before ++ a :: after) = before.length := by
  unfold candidatePlace
  rcases h with ⟨ha, hbefore⟩ | ⟨rfl, hall⟩
  · have hskip : before.findIdx? Answer.classA = none := by
      simpa [List.findIdx?_eq_none_iff, classA_eq] using hbefore
    have hfind : (before ++ a :: after).findIdx? Answer.classA = some before.length := by
      simp [List.findIdx?_append, hskip, List.findIdx?_cons, classA_eq, ha]
    rw [hfind, Option.getD_some]
  · have hnone : ([] ++ a :: after).findIdx? Answer.classA = none := by
      simpa [List.findIdx?_eq_none_iff, classA_eq] using hall
    rw [hnone]
    rfl

theorem exec_attemptStart_zero (s : State) : exec (.attemptStart 0) s = .next (tryAttempt s) := by
  simp only [exec, execAttemptStart, passQuiet_zero, ite_self]

theorem tryAttempt_of_mayAttempt (h : s.mayAttempt = true) : tryAttempt s = startAttempt s.answers.length s := if_pos h

theorem startAttempt_of_candidate {n : Nat} (hq : s.answers = before ++ a :: after) (h : isCandidate a before after) :
    startAttempt (n + 1) s =
      if s.settings.answerLifetime < s.timeBase - a.enqueueTime then startAttempt n (expireEntry before.length a s)
      else startEntry before.length a s := by
  have hplace : s.answers[candidatePlace s.answers]? = some a := by
    rw [hq, candidatePlace_eq h]
    simp
  rw [startAttempt, hplace, hq, candidatePlace_eq h]

/-- An expired candidate leaves the queue, counted, with its marker set (R112, R141). -/
theorem expireEntry_spec (hq : s.answers = before ++ a :: after) :
    (∀ i, (expireEntry before.length a s).slot i = State.unsent [a] s i) ∧
    expireEntry before.length a s = { s with
      slots := (expireEntry before.length a s).slots
      answers := before ++ after
      counters := { s.counters with answerExpired := saturatingSucc s.counters.answerExpired } } := by
  refine ⟨fun i => markUnsent_slot a (s.withAnswers (s.answers.eraseIdx before.length)) i, ?_⟩
  have herased : s.answers.eraseIdx before.length = before ++ after := by
    rw [hq, List.eraseIdx_append_of_length_le (Nat.le_refl _), Nat.sub_self]
    rfl
  obtain ⟨x, hframe⟩ := markUnsent_frame a (s.withAnswers (s.answers.eraseIdx before.length))
  rw [expireEntry, hframe, herased]
  rfl

theorem not_notify_of_answer (h : a.isNotify = false) (m : Bool) : a.body ≠ .notify ref m := fun hbody => by
  rw [Answer.isNotify, hbody] at h
  cases h

theorem takeMissed_of_answer (h : a.isNotify = false) (s : State) : s.takeMissed a = a := by
  cases hbody : a.body with
  | notify ref m => exact absurd hbody (not_notify_of_answer h m)
  | reply | confirm => rw [State.takeMissed, hbody]

theorem clearTaken_of_answer (h : a.isNotify = false) (s : State) : clearTaken a s = s := by
  cases hbody : a.body with
  | notify ref m => exact absurd hbody (not_notify_of_answer h m)
  | reply | confirm => rw [clearTaken, hbody]

/-- Settles O36: the attempt is tried behind the quiet, and its candidate is discarded or started. -/
theorem attemptStartBindsTheCandidate : Obligations.AttemptStartBindsTheCandidate := by
  refine ⟨fun s t q ht => ?_, fun s => ⟨fun hnot => ?_, fun ht hport hstop hunder hquiet before a after hq hcandidate => ?_⟩⟩
  · rw [exec_attemptStart_zero]
    obtain rfl := Host.Outcome.next.inj ht
    rfl
  · rw [exec_attemptStart_zero]
    refine congrArg Host.Outcome.next ?_
    rw [tryAttempt]
    split_ifs with hmay
    · obtain ⟨ht, hport, hstop, hunder, hquiet⟩ := State.mayAttempt_iff.mp hmay
      rcases hnot with hempty | h | h | h | h | h
      · rw [hempty]
        rfl
      · exact absurd ht h
      · exact absurd hport h
      · exact absurd (hstop.symm.trans h) Bool.false_ne_true
      · exact absurd hunder h
      · omega
    · rfl
  have hmay : s.mayAttempt = true := State.mayAttempt_iff.mpr ⟨ht, hport, hstop, hunder, hquiet⟩
  have hlength : s.answers.length = (before ++ after).length + 1 := by
    rw [hq]
    simp
    omega
  have hstart := startAttempt_of_candidate (n := (before ++ after).length) hq hcandidate
  have hexec : exec (.attemptStart 0) s = .next _ :=
    (exec_attemptStart_zero s).trans (congrArg _ ((tryAttempt_of_mayAttempt hmay).trans (hlength ▸ hstart)))
  refine ⟨fun hexpired => ?_, fun hlive => ?_⟩
  · rw [if_pos hexpired] at hexec
    obtain ⟨hslots, hframe⟩ := expireEntry_spec hq
    refine ⟨expireEntry before.length a s, ?_, hslots, hframe⟩
    have hmay' : (expireEntry before.length a s).mayAttempt = true := by
      rw [hframe]
      exact hmay
    have hanswers : (expireEntry before.length a s).answers = before ++ after := by rw [hframe]
    rw [hexec, exec_attemptStart_zero, tryAttempt_of_mayAttempt hmay', hanswers]
  · rw [if_neg (Nat.not_lt_of_le hlive)] at hexec
    have hset : ∀ b : Answer, s.answers.set before.length b = before ++ b :: after := fun b => by
      rw [hq]
      simp
    refine ⟨fun hanswer => ?_, fun ref m hbody => ⟨_, m || ((s.subscription ref a.destination).map (·.missed)).getD false,
      hexec, ?_, ?_, fun i => ?_⟩⟩
    · rw [hexec, startEntry, takeMissed_of_answer hanswer, clearTaken_of_answer hanswer, hset]
      rfl
    · cases s.subscription ref a.destination <;> simp
    · have htaken : s.takeMissed a = { a with
          body := .notify ref (m || ((s.subscription ref a.destination).map (·.missed)).getD false) } := by
        rw [State.takeMissed, hbody]
      obtain ⟨x, hframe⟩ := setMarker_frame ref a.destination false s
      have hclear : clearTaken a s = { s with slots := x } := by rw [clearTaken, hbody]; exact hframe
      rw [startEntry, htaken, hclear]
      dsimp only
      rw [hset]
      rfl
    · have hclear : clearTaken a s = setMarker ref a.destination false s := by rw [clearTaken, hbody]
      change (clearTaken a s).slot i = _
      rw [hclear, setMarker_slot]

end Sys2Proof.Machine
end

section
/-! PROOF. BUS_STOP, at once or behind the attempt under way (R112, R129, R133, R134, R144 to R146, R168). -/

namespace Sys2Proof.Machine

variable {s u v : State} {a : Answer} {b : Block} {i : SlotIx} {l l' before after : List Answer} {f : Frame} {k : Nat}
  {x : Reading}

/-! ## The markers of entries that leave unsent (R112) -/

/-- The markers depend on the NOTIFYs among the entries alone. -/
theorem unsent_congr (hslot : u.slot i = s.slot i)
    (h : ∀ ref n, l.any (Answer.notifies ref n) = l'.any (Answer.notifies ref n)) :
    State.unsent l u i = State.unsent l' s i := by
  have hinc : u.incarnation i = s.incarnation i := congrArg Slot.incarnation hslot
  have hrecord : u.record i = s.record i := congrArg Slot.record hslot
  simp only [State.unsent, hinc, hrecord, h]

/-- The first started entry, where it stands. -/
theorem split_started (h : s.startedEntry = some a) : ∃ before after, s.answers = before ++ a :: after ∧
    a.started = true ∧ s.answers.eraseP (·.started) = before ++ after := by
  obtain ⟨hstarted, before, after, hq, hbefore⟩ := List.find?_eq_some_iff_append.mp h
  refine ⟨before, after, hq, hstarted, ?_⟩
  rw [hq, List.eraseP_append_right _ (fun y hy => by simpa using hbefore y hy), List.eraseP_cons_of_pos hstarted]

theorem any_notifies_split (ref : Ref) (n : Addr) :
    (before ++ a :: after).any (Answer.notifies ref n) = (a :: (before ++ after)).any (Answer.notifies ref n) := by
  simp only [List.any_append, List.any_cons]
  cases before.any (Answer.notifies ref n) <;> cases a.notifies ref n <;> rfl

theorem notifies_unstart (ref : Ref) (n : Addr) (m : Nat) (l : List Answer) :
    (l.map fun a => if a.started then { a with started := false, faultCount := m } else a).any (Answer.notifies ref n) =
      l.any (Answer.notifies ref n) := by
  rw [List.any_map]
  congr 1
  funext a
  by_cases h : a.started <;> simp [h, Answer.notifies]

theorem notifies_of_waiting {ref : Ref} {n : Addr} (h : a.isWaitingNotify ref n = true) :
    a.started = false ∧ ∀ ref' n', a.notifies ref' n' = (decide (ref = ref') && decide (n = n')) := by
  unfold Answer.isWaitingNotify at h
  cases hbody : a.body with
  | notify r m =>
    simp only [hbody, Bool.and_eq_true, decide_eq_true_eq, Bool.not_eq_true'] at h
    obtain ⟨⟨rfl, rfl⟩, hstarted⟩ := h
    exact ⟨hstarted, fun ref' n' => by rw [Answer.notifies, hbody]⟩
  | reply | confirm => simp [hbody] at h

theorem notifies_of_notify {ref : Ref} {m : Bool} (h : a.body = .notify ref m) (ref' : Ref) (n' : Addr) :
    a.notifies ref' n' = (decide (ref = ref') && decide (a.destination = n')) := by
  rw [Answer.notifies, h]

theorem returnEntry_of_answer (h : ∀ ref m, a.body ≠ .notify ref m) (m : Nat) : returnEntry a m s = unstart m s := by
  cases hbody : a.body with
  | notify ref m' => exact absurd hbody (h ref m')
  | reply | confirm => rw [returnEntry, hbody]

theorem returnEntry_of_alone {ref : Ref} {m' : Bool} (hbody : a.body = .notify ref m')
    (h : s.waits ref a.destination = false) (m : Nat) : returnEntry a m s = unstart m s := by
  rw [returnEntry, hbody]
  exact if_neg (by simpa [State.waits] using h)

theorem returnEntry_of_duplicate {ref : Ref} {m' : Bool} (hbody : a.body = .notify ref m')
    (h : s.waits ref a.destination = true) (m : Nat) :
    returnEntry a m s = passOnMissed ref a.destination m' (withoutStarted s) := by
  rw [returnEntry, hbody]
  exact if_pos h

theorem unsent_unstart (m : Nat) (s : State) (i : SlotIx) :
    State.unsent (unstart m s).answers (unstart m s) i = State.unsent s.answers s i :=
  unsent_congr rfl fun ref n => notifies_unstart ref n m s.answers

/-- An entry that returns, or leaves behind a duplicate, leaves the markers that a stop sets (R113). -/
theorem unsent_returnEntry (h : s.startedEntry = some a) (m : Nat) (i : SlotIx) :
    State.unsent (returnEntry a m s).answers (returnEntry a m s) i = State.unsent s.answers s i := by
  obtain ⟨before, after, hq, hstarted, herased⟩ := split_started h
  by_cases hbody : ∃ ref m', a.body = .notify ref m'
  · obtain ⟨ref, m', hbody⟩ := hbody
    cases hwaits : s.waits ref a.destination with
    | false => rw [returnEntry_of_alone hbody hwaits, unsent_unstart]
    | true =>
      obtain ⟨d, hd, hdup⟩ := List.any_eq_true.mp hwaits
      obtain ⟨hunstarted, hsame⟩ := notifies_of_waiting hdup
      have hd' : d ∈ before ++ after := by
        rw [hq] at hd
        rcases List.mem_append.mp hd with hd | hd
        · exact List.mem_append_left _ hd
        · rcases List.mem_cons.mp hd with rfl | hd
          · rw [hstarted] at hunstarted; cases hunstarted
          · exact List.mem_append_right _ hd
      have hall : ∀ ref' n', (a :: (before ++ after)).any (Answer.notifies ref' n') =
          (before ++ after).any (Answer.notifies ref' n') := fun ref' n' => by
        rw [List.any_cons, notifies_of_notify hbody, ← hsame]
        cases hn : d.notifies ref' n' with
        | false => rfl
        | true => rw [List.any_eq_true.mpr ⟨d, hd', hn⟩]; rfl
      have hsplit : ∀ ref' n', (before ++ after).any (Answer.notifies ref' n') =
          s.answers.any (Answer.notifies ref' n') := fun ref' n' => by
        rw [hq, any_notifies_split, hall]
      rw [returnEntry_of_duplicate hbody hwaits]
      cases m' with
      | false =>
        change State.unsent (s.answers.eraseP _) (withoutStarted s) i = _
        rw [herased]
        exact unsent_congr rfl hsplit
      | true =>
        have hmark : passOnMissed ref a.destination true (withoutStarted s) = markUnsent (withoutStarted s) a := by
          rw [markUnsent, hbody]
          rfl
        obtain ⟨y, hframe⟩ := markUnsent_frame a (withoutStarted s)
        have hqueue : (markUnsent (withoutStarted s) a).answers = before ++ after := by
          rw [hframe, ← herased]
          rfl
        rw [hmark, hqueue, unsent_cons a _ _ _ i (markUnsent_slot a (withoutStarted s) i)]
        exact unsent_congr rfl fun ref' n' => (hall ref' n').trans (hsplit ref' n')
  · rw [returnEntry_of_answer fun ref m' hb => hbody ⟨ref, m', hb⟩, unsent_unstart]

/-! ## The end of an attempt under a stop (R134) -/

theorem endAttempt_of_stopping (hp : s.port.stopPending = true) (hb : s.host.commands.head? = some b) :
    endAttempt s = completeCommand b 1 .ok [] (goOffline (s.withTransmitter none)) := by
  have hcommands : (goOffline (s.withTransmitter none)).host.commands = s.host.commands := by
    obtain ⟨⟨y, hframe⟩, -⟩ := goOffline_spec (s.withTransmitter none)
    rw [hframe]
    rfl
  obtain ⟨rest, hcons⟩ := List.head?_eq_some_iff.mp hb
  rw [endAttempt, if_pos hp, completeStop, hcommands, hcons]
  rfl

/-- From `s` to `u` the queue has been emptied by a stop, the entries `l` unsent (R133, R134). -/
structure Stopped (s : State) (l : List Answer) (c : Counters) (st : Sticky) (u : State) : Prop where
  slots : ∀ i, u.slot i = State.unsent l s i
  rest : u = { s with
    slots := u.slots
    answers := []
    transmitter := none
    port := s.stoppedPort
    counters := c
    host := { s.host with sticky := st } }

/-- The end, under a stop, of an attempt that has changed no more than slots, queue, port, counters and sticky bits. -/
theorem endAttempt_stops {y : Vector Slot 512} {q : List Answer} {p : Port} {c : Counters} {st : Sticky}
    (hv : v = { s with
      slots := y
      answers := q
      port := p
      counters := c
      host := { s.host with sticky := st } })
    (hp : p.stopPending = true) (hb : s.host.commands.head? = some b)
    (hmarks : ∀ i, State.unsent q v i = State.unsent l s i)
    (hport : State.stoppedPort { s with port := p } = s.stoppedPort) :
    ∃ u, endAttempt v = completeCommand b 1 .ok [] u ∧ Stopped s l c st u := by
  have hp' : v.port.stopPending = true := by rw [hv]; exact hp
  have hb' : v.host.commands.head? = some b := by rw [hv]; exact hb
  have hq : v.answers = q := by rw [hv]
  obtain ⟨⟨z, hoffline⟩, hslots⟩ := goOffline_spec (v.withTransmitter none)
  refine ⟨_, endAttempt_of_stopping hp' hb', fun i => (hslots i).trans ?_, ?_⟩
  · rw [← hmarks, ← hq]
    rfl
  · rw [hoffline, ← hport]
    subst hv
    rfl

/-- A port that has gone OFFLINE sees no reading (R134). -/
theorem seeReading_stopped {c : Counters} {st : Sticky} (h : Stopped s l c st u) (x : Reading) :
    seeReading x (completeCommand b 1 .ok [] u) = completeCommand b 1 .ok [] u := by
  have hdeaf : (completeCommand b 1 .ok [] u).listens = false := by
    change u.listens = false
    rw [h.rest]
    rfl
  rw [seeReading, hdeaf]
  rfl

theorem returnEntry_frame (a : Answer) (m : Nat) (s : State) :
    ∃ y q, returnEntry a m s = { s with slots := y, answers := q } := by
  by_cases hbody : ∃ ref m', a.body = .notify ref m'
  · obtain ⟨ref, m', hbody⟩ := hbody
    cases hwaits : s.waits ref a.destination with
    | false => exact ⟨_, _, returnEntry_of_alone hbody hwaits m⟩
    | true =>
      rw [returnEntry_of_duplicate hbody hwaits, passOnMissed]
      split_ifs
      · obtain ⟨y, hframe⟩ := setMarker_frame ref a.destination true (withoutStarted s)
        exact ⟨y, _, hframe⟩
      · exact ⟨s.slots, _, rfl⟩
  · exact ⟨_, _, returnEntry_of_answer (fun ref m' hb => hbody ⟨ref, m', hb⟩) m⟩

/-- An entry that returns under a stop (R134, R145). -/
theorem endAttempt_returnEntry_stops (hp : s.port.stopPending = true) (hb : s.host.commands.head? = some b)
    (ha : s.startedEntry = some a) (m : Nat) :
    ∃ u, endAttempt (returnEntry a m s) = completeCommand b 1 .ok [] u ∧
      Stopped s s.answers s.counters s.host.sticky u := by
  obtain ⟨y, q, hframe⟩ := returnEntry_frame a m s
  have hmarks := unsent_returnEntry ha m
  rw [hframe] at hmarks ⊢
  exact endAttempt_stops rfl hp hb hmarks rfl

theorem loseAttempt_stops (hp : s.port.stopPending = true) (hb : s.host.commands.head? = some b) :
    ∃ u, loseAttempt s = completeCommand b 1 .ok [] u ∧ Stopped s s.answers s.counters s.host.sticky u := by
  rw [loseAttempt]
  cases ha : s.startedEntry with
  | none => exact endAttempt_stops rfl hp hb (fun _ => rfl) rfl
  | some a => exact endAttempt_returnEntry_stops hp hb ha _

theorem faultAttempt_stops (hp : s.port.stopPending = true) (hb : s.host.commands.head? = some b)
    (hlimit : ∀ a, s.startedEntry = some a → a.faultCount < 2) :
    ∃ u, faultAttempt s = completeCommand b 1 .ok [] u ∧ Stopped s s.answers s.counters s.host.sticky u := by
  rw [faultAttempt]
  cases ha : s.startedEntry with
  | none => exact endAttempt_stops rfl hp hb (fun _ => rfl) rfl
  | some a =>
    dsimp only
    rw [if_pos (Nat.succ_lt_succ (hlimit a ha))]
    exact endAttempt_returnEntry_stops hp hb ha _

/-- The third fault under a stop (R134, R146). -/
theorem faultAttempt_stops_atLimit (hp : s.port.stopPending = true) (hb : s.host.commands.head? = some b)
    (ha : s.startedEntry = some a) (hlimit : 2 ≤ a.faultCount) :
    ∃ u, faultAttempt s = completeCommand b 1 .ok [] u ∧
      Stopped s s.answers { s.counters with txFaults := saturatingSucc s.counters.txFaults }
        { s.host.sticky with txFault := true } u := by
  rw [faultAttempt, ha]
  dsimp only
  rw [if_neg (by simp only [Config.faultLimit]; omega)]
  obtain ⟨before, after, hq, -, herased⟩ := split_started ha
  obtain ⟨y, hframe⟩ := markUnsent_frame a (withoutStarted s)
  have hmarks : ∀ i, State.unsent (before ++ after) (markUnsent (withoutStarted s) a) i = State.unsent s.answers s i :=
    fun i => by
      rw [unsent_cons a _ s _ i (markUnsent_slot a (withoutStarted s) i), hq]
      exact unsent_congr rfl fun ref n => (any_notifies_split ref n).symm
  rw [hframe] at hmarks ⊢
  refine endAttempt_stops (y := y) (q := before ++ after) ?_ hp hb hmarks rfl
  rw [← herased]
  rfl

/-! ## The events that end the attempt under a stop -/

theorem attemptSent_stops (htx : s.transmitter = some f) (hp : s.port.stopPending = true)
    (hb : s.host.commands.head? = some b) :
    ∃ u, exec .attemptSent s = .next (completeCommand b 1 .ok [] u) ∧
      Stopped s (s.answers.eraseP (·.started)) s.counters s.host.sticky u := by
  obtain ⟨u, hend, hstopped⟩ := endAttempt_stops (v := withoutStarted (endEcho f s)) (s := s) rfl hp hb
    (fun _ => rfl) rfl
  refine ⟨u, ?_, hstopped⟩
  change execAttemptSent s = _
  rw [execAttemptSent, htx, ← hend]

theorem Stopped.of_leaveLine {c : Counters} {st : Sticky} {bits : List Bool}
    (h : Stopped (leaveLine bits s) l c st u) : Stopped s l c st u := ⟨h.slots, h.rest⟩

theorem attemptLost_stops (htx : s.transmitter = some f) (hp : s.port.stopPending = true)
    (hb : s.host.commands.head? = some b) (hlost : f.lostAt k) :
    ∃ u, exec (.attemptLost k) s = .next (completeCommand b 1 .ok [] u) ∧
      Stopped s s.answers s.counters s.host.sticky u := by
  obtain ⟨u, hend, hstopped⟩ := loseAttempt_stops (s := leaveLine (f.bits.take k) s) hp hb
  refine ⟨u, ?_, hstopped.of_leaveLine⟩
  change execAttemptLost k s = _
  rw [execAttemptLost, htx]
  dsimp only
  rw [if_pos (attemptVerdict_lost.mpr hlost), hend, seeReading_stopped hstopped]

/-- A FAULT once the attempt has come to its end under the stop. -/
theorem attemptFault_stops {c : Counters} {st : Sticky} (htx : s.transmitter = some f) (hfault : f.faultAt k x)
    (h : ∃ u, faultAttempt (leaveLine (f.bits.take k) s) = completeCommand b 1 .ok [] u ∧
      Stopped (leaveLine (f.bits.take k) s) s.answers c st u) :
    ∃ u, exec (.attemptFault k x) s = .next (completeCommand b 1 .ok [] u) ∧ Stopped s s.answers c st u := by
  obtain ⟨u, hend, hstopped⟩ := h
  refine ⟨u, ?_, hstopped.of_leaveLine⟩
  change execAttemptFault k x s = _
  rw [execAttemptFault, htx]
  dsimp only
  rw [if_pos (attemptVerdict_fault.mpr hfault), hend, seeReading_stopped hstopped]

theorem attemptLost_of_not_lost (htx : s.transmitter = some f) (h : ¬ f.lostAt k) :
    exec (.attemptLost k) s = .next s := by
  change execAttemptLost k s = _
  rw [execAttemptLost, htx]
  dsimp only
  rw [if_neg fun hv => h (attemptVerdict_lost.mp hv)]

theorem attemptFault_of_not_fault (htx : s.transmitter = some f) (h : ¬ f.faultAt k x) :
    exec (.attemptFault k x) s = .next s := by
  change execAttemptFault k x s = _
  rw [execAttemptFault, htx]
  dsimp only
  rw [if_neg fun hv => h (attemptVerdict_fault.mp hv)]

/-! ## BUS_STOP as it is taken (R133) -/

theorem exec_busStop_of_offline (h : s.canTake .busStop b) (hport : s.port.state = .offline) :
    exec .busStop s = .next (completeCommand b 1 .ok [] s) := by
  change execBusStop s = _
  rw [execBusStop, if_neg (by simp [hport]), takeCommand_of_canTake h, decideBusStop, if_pos hport]
  rfl

theorem exec_busStop_of_attempt (h : s.canTake .busStop b) (hport : s.port.state = .online)
    (htx : s.transmitter ≠ none) : exec .busStop s = .next (beginStop s) := by
  obtain ⟨htakeable, hcommand⟩ := h
  change execBusStop s = _
  rw [execBusStop, if_pos ⟨hport, Option.isSome_iff_ne_none.mpr htx⟩, htakeable]
  dsimp only
  rw [if_pos hcommand]

theorem exec_busStop_of_free (h : s.canTake .busStop b)
    (hport : s.port.state = .joining ∨ (s.port.state = .online ∧ s.transmitter = none)) :
    exec .busStop s = .next (completeCommand b 1 .ok [] (goOffline s)) := by
  have hfree : ¬ (s.port.state = .online ∧ s.transmitter.isSome) := by
    rcases hport with hjoining | ⟨-, htx⟩
    · simp [hjoining]
    · simp [htx]
  have hconnected : s.port.state ≠ .offline := by
    rcases hport with hjoining | ⟨honline, -⟩
    · simp [hjoining]
    · simp [honline]
  change execBusStop s = _
  rw [execBusStop, if_neg hfree, takeCommand_of_canTake h, decideBusStop, if_neg hconnected]
  rfl

/-- Settles O35: BUS_STOP by the state of the port, then each event that ends the attempt. -/
theorem busStopEmptiesTheQueue : Obligations.BusStopEmptiesTheQueue := by
  unfold Obligations.BusStopEmptiesTheQueue
  refine ⟨fun s b h => ⟨exec_busStop_of_offline h, exec_busStop_of_attempt h, fun hport => ?_⟩,
    fun s f b htx hp hb => ?_⟩
  · obtain ⟨⟨y, hframe⟩, hslots⟩ := goOffline_spec s
    refine ⟨_, exec_busStop_of_free h hport, hslots, ?_⟩
    rw [hframe]
  · intro atLimit stops
    have of_stopped : ∀ {c : Instr} {unsent counters sticky},
        (∃ u, exec c s = .next (completeCommand b 1 .ok [] u) ∧ Stopped s unsent counters sticky u) →
          stops c unsent counters sticky := fun ⟨u, hexec, hstopped⟩ => ⟨u, hexec, hstopped.slots, hstopped.rest⟩
    refine ⟨of_stopped (attemptSent_stops htx hp hb), fun k hlost => of_stopped (attemptLost_stops htx hp hb hlost),
      fun k x hfault => ⟨fun hbelow => ?_, fun ⟨a, ha, hlimit⟩ => ?_⟩,
      fun k => attemptLost_of_not_lost htx, fun k x => attemptFault_of_not_fault htx⟩
    · exact of_stopped (attemptFault_stops htx hfault (faultAttempt_stops hp hb fun a ha =>
        Nat.lt_of_not_le fun hlimit => hbelow ⟨a, ha, hlimit⟩))
    · exact of_stopped (attemptFault_stops htx hfault (faultAttempt_stops_atLimit hp hb ha hlimit))

end Sys2Proof.Machine
end

section
/-! PROOF. The ends of an attempt without a stop pending (R113, R117, R125, R129, R144 to R146). -/

namespace Sys2Proof.Machine

variable {s v : State} {a : Answer} {before after : List Answer} {f : Frame} {k n : Nat} {x : Reading} {c : Instr}

/-! ## The queue around its started entry -/

theorem startedEntry_of_split (hq : s.answers = before ++ a :: after) (ha : a.started = true)
    (hothers : ∀ y ∈ before ++ after, y.started = false) : s.startedEntry = some a := by
  have hbefore : ∀ y ∈ before, (!y.started) = true := fun y hy => by simp [hothers y (List.mem_append_left _ hy)]
  exact List.find?_eq_some_iff_append.mpr ⟨ha, before, after, hq, hbefore⟩

theorem withoutStarted_of_split (hq : s.answers = before ++ a :: after) (ha : a.started = true)
    (hothers : ∀ y ∈ before ++ after, y.started = false) : withoutStarted s = s.withAnswers (before ++ after) := by
  rw [withoutStarted, hq, List.eraseP_append_right _ fun y hy => by simp [hothers y (List.mem_append_left _ hy)],
    List.eraseP_cons_of_pos ha]

theorem unstart_of_split (hq : s.answers = before ++ a :: after) (ha : a.started = true)
    (hothers : ∀ y ∈ before ++ after, y.started = false) (n : Nat) :
    unstart n s = s.withAnswers (before ++ { a with started := false, faultCount := n } :: after) := by
  have unchanged : ∀ l : List Answer, (∀ y ∈ l, y.started = false) →
      (l.map fun y => if y.started then { y with started := false, faultCount := n } else y) = l := fun l hl =>
    (List.map_congr_left fun y hy => by simp [hl y hy]).trans (List.map_id l)
  rw [unstart, hq, List.map_append, List.map_cons, if_pos ha,
    unchanged before fun y hy => hothers y (List.mem_append_left _ hy),
    unchanged after fun y hy => hothers y (List.mem_append_right _ hy)]

/-- A marker does not look at the transmitter, the port, the counters or the queue. -/
theorem setMarker_behind (ref : Ref) (d : Addr) (m : Bool) (s : State) (tx : Option Frame) (p : Port) (c : Counters)
    (q : List Answer) :
    setMarker ref d m { s with transmitter := tx, port := p, counters := c, answers := q } =
      { setMarker ref d m s with transmitter := tx, port := p, counters := c, answers := q } := by
  have hrecord : State.record { s with transmitter := tx, port := p, counters := c, answers := q } ref.slot =
    s.record ref.slot := rfl
  have hincarnation : State.incarnation { s with transmitter := tx, port := p, counters := c, answers := q } ref.slot =
    s.incarnation ref.slot := rfl
  simp only [setMarker, hrecord, hincarnation]
  cases s.record ref.slot with
  | none => rfl
  | some r =>
    by_cases hsame : s.incarnation ref.slot = ref.incarnation
    · simp only [if_pos hsame]
      rfl
    · simp only [if_neg hsame]

/-! ## The attempt under way -/

/-- An attempt is under way with frame `f` of the started entry `a`, on a line that was idle, without a stop pending. -/
structure Attempting (s : State) (f : Frame) (before : List Answer) (a : Answer) (after : List Answer) : Prop where
  transmitter : s.transmitter = some f
  going : s.port.stopPending = false
  queue : s.answers = before ++ a :: after
  started : a.started = true
  others : ∀ y ∈ before ++ after, y.started = false
  online : s.port.state = .online
  noFrame : s.port.underWay = none
  idle : 11 ≤ s.port.quietTime
  payload : f.payload.length ≤ 8

/-- The port behind an attempt that ended with reading `x` in bit `k` (R117, R125, R129). -/
def State.portBehind (f : Frame) (k : Nat) (x : Reading) (s : State) : Port :=
  match x with
  | .zero => s.leftPort (f.bits.take k ++ [false]) 0 (k + 1)
  | .one => s.leftPort (f.bits.take k ++ [true]) 0 (k + 1)
  | .quiet => s.leftPort [] (if k = 0 then s.port.quietTime + 1 else 1) (k + 1)

/-- The bits of an attempt that a quiet reading cuts short count as a bad frame (R117, R125). -/
def Counters.behind (k : Nat) (x : Reading) (c : Counters) : Counters :=
  if x = .quiet ∧ k ≠ 0 then { c with rxBad := saturatingSucc c.rxBad } else c

theorem Attempting.startedEntry_leaveLine (h : Attempting s f before a after) (bits : List Bool) :
    (leaveLine bits s).startedEntry = some a :=
  startedEntry_of_split (s := leaveLine bits s) h.queue h.started h.others

theorem Attempting.withoutStarted_leaveLine (h : Attempting s f before a after) (bits : List Bool) :
    withoutStarted (leaveLine bits s) = (leaveLine bits s).withAnswers (before ++ after) :=
  withoutStarted_of_split (s := leaveLine bits s) h.queue h.started h.others

/-- The end of an attempt that has left the line with its bits before `k`. -/
theorem Attempting.seeReading_endAttempt (h : Attempting s f before a after) (hk : k < f.bits.length)
    (x : Reading) (hport : v.port = (leaveLine (f.bits.take k) s).port) :
    seeReading x (endAttempt v) =
      { v with transmitter := none, port := s.portBehind f k x, counters := v.counters.behind k x } := by
  have hgoing : v.port.stopPending = false := by rw [hport]; exact h.going
  rw [endAttempt_of_going hgoing,
    seeReading_behind (v := v.withTransmitter none) h.going h.online h.noFrame h.idle h.payload hk hport rfl]
  cases x <;> rfl

/-- The two events that return the entry with `n` faults (R145, R146). -/
def ReturnsBy (f : Frame) (a : Answer) (c : Instr) (n k : Nat) (x : Reading) : Prop :=
  (c = .attemptLost k ∧ f.lostAt k ∧ n = a.faultCount ∧ x = .zero) ∨
    (c = .attemptFault k x ∧ f.faultAt k x ∧ a.faultCount < 2 ∧ n = a.faultCount + 1)

theorem length_of_lostAt (h : f.lostAt k) : k < f.bits.length := (List.getElem?_eq_some_iff.mp h.2).1

theorem length_of_faultAt (h : f.faultAt k x) : k < f.bits.length := by
  rcases h with ⟨hbit, -⟩ | ⟨hbit, -⟩
  · exact (List.getElem?_eq_some_iff.mp hbit).1
  · exact (List.getElem?_eq_some_iff.mp hbit).1

theorem Attempting.exec_attemptLost (h : Attempting s f before a after) (hlost : f.lostAt k) :
    exec (.attemptLost k) s = .next
      (seeReading .zero (endAttempt (returnEntry a a.faultCount (leaveLine (f.bits.take k) s)))) := by
  change execAttemptLost k s = _
  rw [execAttemptLost, h.transmitter]
  dsimp only
  rw [if_pos (attemptVerdict_lost.mpr hlost), loseAttempt, h.startedEntry_leaveLine]

theorem Attempting.exec_attemptFault (h : Attempting s f before a after) (hfault : f.faultAt k x) :
    exec (.attemptFault k x) s = .next (seeReading x (faultAttempt (leaveLine (f.bits.take k) s))) := by
  change execAttemptFault k x s = _
  rw [execAttemptFault, h.transmitter]
  dsimp only
  rw [if_pos (attemptVerdict_fault.mpr hfault)]

theorem Attempting.exec_of_returnsBy (h : Attempting s f before a after) (hc : ReturnsBy f a c n k x) :
    exec c s = .next (seeReading x (endAttempt (returnEntry a n (leaveLine (f.bits.take k) s)))) ∧
      k < f.bits.length := by
  rcases hc with ⟨rfl, hlost, rfl, rfl⟩ | ⟨rfl, hfault, hlimit, rfl⟩
  · exact ⟨h.exec_attemptLost hlost, length_of_lostAt hlost⟩
  · have hentry : (leaveLine (f.bits.take k) s).startedEntry = some a :=
      startedEntry_of_split h.queue h.started h.others
    refine ⟨(h.exec_attemptFault hfault).trans ?_, length_of_faultAt hfault⟩
    rw [faultAttempt, h.startedEntry_leaveLine]
    dsimp only
    rw [if_pos (Nat.succ_lt_succ hlimit)]

/-! ## The entry behind the attempt (R113, R144 to R146) -/

/-- SENT removes the entry (R144). -/
theorem Attempting.exec_attemptSent (h : Attempting s f before a after) :
    exec .attemptSent s = .next
      { s with transmitter := none, answers := before ++ after, port := s.leftPort [] 1 (f.bits.length + 1) } := by
  have hremoved : withoutStarted (endEcho f s) = (endEcho f s).withAnswers (before ++ after) :=
    withoutStarted_of_split (s := endEcho f s) h.queue h.started h.others
  have hgoing : ((endEcho f s).withAnswers (before ++ after)).port.stopPending = false := h.going
  change execAttemptSent s = _
  rw [execAttemptSent, h.transmitter]
  dsimp only
  rw [hremoved, endAttempt_of_going hgoing]
  rfl

/-- A frame that went on behind the last bit sent is bad (R125; log 8). -/
theorem Attempting.exec_frameDropped (h : Attempting s f before a after) {l : List Bool} (hl : l ≠ []) :
    exec (.frameDropped (((f.bits ++ l).map fun b => if b then Reading.one else .zero) ++ [.quiet])) s =
      .next (s.count .rxBad) := by
  have hreads : s.reads = true := by simp [State.reads, h.online, h.going]
  have hattempt : s.transmitter ≠ none := by simp [h.transmitter]
  have hended : endedFrames 11 none (((f.bits ++ l).map fun b => if b then Reading.one else .zero) ++ [.quiet]) =
      [none] := by
    rw [endedFrames_bits _ 11 none (.inr ⟨le_rfl, List.append_ne_nil_of_right_ne_nil _ hl⟩)]
    exact congrArg (fun y => [y]) (parseFrame_append h.payload hl)
  rw [exec_frameDropped_of_attempt hreads hattempt, hended]
  change Host.Outcome.next (receive none s) = _
  simp [receive]

/-- An entry that is no NOTIFY, or has no duplicate, returns to its place (R145, R146). -/
theorem Attempting.exec_of_unstart (h : Attempting s f before a after) (hc : ReturnsBy f a c n k x)
    (hreturns : returnEntry a n (leaveLine (f.bits.take k) s) = unstart n (leaveLine (f.bits.take k) s)) :
    exec c s = .next
      { s with
        transmitter := none
        port := s.portBehind f k x
        counters := s.counters.behind k x
        answers := before ++ { a with started := false, faultCount := n } :: after } := by
  obtain ⟨hexec, hk⟩ := h.exec_of_returnsBy hc
  have hunstart : unstart n (leaveLine (f.bits.take k) s) = (leaveLine (f.bits.take k) s).withAnswers
      (before ++ { a with started := false, faultCount := n } :: after) :=
    unstart_of_split (s := leaveLine (f.bits.take k) s) h.queue h.started h.others n
  rw [hexec, hreturns, hunstart, h.seeReading_endAttempt hk x]
  · rfl
  · rfl

/-- A NOTIFY behind an unstarted one of its triple is removed, and passes its MISSED flag on (R113). -/
theorem Attempting.exec_of_duplicate (h : Attempting s f before a after) (hc : ReturnsBy f a c n k x) {ref : Ref}
    {m : Bool} (hbody : a.body = .notify ref m) (hwaits : s.waits ref a.destination = true) :
    exec c s = .next (passOnMissed ref a.destination m
      { s with
        transmitter := none
        port := s.portBehind f k x
        counters := s.counters.behind k x
        answers := before ++ after }) := by
  obtain ⟨hexec, hk⟩ := h.exec_of_returnsBy hc
  rw [hexec, returnEntry_of_duplicate (s := leaveLine (f.bits.take k) s) hbody hwaits,
    h.withoutStarted_leaveLine]
  cases m with
  | false =>
    rw [passOnMissed, if_neg Bool.false_ne_true, h.seeReading_endAttempt hk x]
    · rfl
    · rfl
  | true =>
    have hmarked : setMarker ref a.destination true ((leaveLine (f.bits.take k) s).withAnswers (before ++ after)) =
        { setMarker ref a.destination true s with
          transmitter := s.transmitter
          port := (leaveLine (f.bits.take k) s).port
          counters := s.counters
          answers := before ++ after } :=
      setMarker_behind ref a.destination true s s.transmitter _ s.counters _
    rw [passOnMissed, if_pos rfl, passOnMissed, if_pos rfl, setMarker_behind ref a.destination true s none, hmarked,
      h.seeReading_endAttempt hk x]
    rfl

/-- The third fault discards the entry (R146). -/
theorem Attempting.exec_attemptFault_atLimit (h : Attempting s f before a after) (hfault : f.faultAt k x)
    (hlimit : 2 ≤ a.faultCount) :
    ∃ u, exec (.attemptFault k x) s = .next u ∧ (∀ i, u.slot i = State.unsent [a] s i) ∧
      u = { s with
        transmitter := none
        port := s.portBehind f k x
        slots := u.slots
        answers := before ++ after
        counters := { s.counters.behind k x with txFaults := saturatingSucc s.counters.txFaults }
        host := { s.host with sticky := { s.host.sticky with txFault := true } } } := by
  obtain ⟨y, hframe⟩ := markUnsent_frame a ((leaveLine (f.bits.take k) s).withAnswers (before ++ after))
  have hslots := markUnsent_slot a ((leaveLine (f.bits.take k) s).withAnswers (before ++ after))
  have hbound : ¬ a.faultCount + 1 < Config.faultLimit := by simp only [Config.faultLimit]; omega
  refine ⟨_, h.exec_attemptFault hfault, ?_⟩
  rw [faultAttempt, h.startedEntry_leaveLine]
  dsimp only
  rw [if_neg hbound, h.withoutStarted_leaveLine]
  rw [hframe] at hslots ⊢
  rw [h.seeReading_endAttempt (length_of_faultAt hfault) x]
  swap
  · rfl
  refine ⟨hslots, ?_⟩
  by_cases hcut : x = .quiet ∧ k ≠ 0
  · simp only [Counters.behind, if_pos hcut]
    rfl
  · simp only [Counters.behind, if_neg hcut]
    rfl

/-- Settles O38: each event by what it makes of the started entry and of the line behind it. -/
theorem attemptEndsSettleTheEntry : Obligations.AttemptEndsSettleTheEntry := by
  unfold Obligations.AttemptEndsSettleTheEntry
  intro s f before after a htx hgoing hq ha hothers honline hframe hidle hpayload left cut free back sent
  have h : Attempting s f before a after := ⟨htx, hgoing, hq, ha, hothers, honline, hframe, hidle, hpayload⟩
  refine ⟨h.exec_attemptSent, fun l hl => ⟨_, h.exec_frameDropped hl, ?_⟩, fun k => attemptLost_of_not_lost htx,
    fun k x => attemptFault_of_not_fault htx, fun c n k x hc => ⟨fun hbody => ?_, fun ref m hbody => ⟨fun hw => ?_,
    fun hw => ?_⟩⟩, fun k x hfault hlimit => ?_⟩
  · have hcounted : Attempting (s.count .rxBad) f before a after :=
      ⟨htx, hgoing, hq, ha, hothers, honline, hframe, hidle, hpayload⟩
    exact hcounted.exec_attemptSent
  · exact (h.exec_of_unstart hc (returnEntry_of_answer hbody n)).trans (by cases x <;> rfl)
  · have hreturns := returnEntry_of_alone (s := leaveLine (f.bits.take k) s) hbody hw n
    exact (h.exec_of_unstart hc hreturns).trans (by cases x <;> rfl)
  · exact (h.exec_of_duplicate hc hbody hw).trans (by cases x <;> rfl)
  · obtain ⟨u, hexec, hslots, hu⟩ := h.exec_attemptFault_atLimit hfault hlimit
    exact ⟨u, hexec, hslots, hu.trans (by cases x <;> rfl)⟩

end Sys2Proof.Machine
end
